-- ==== Sys2Proof/Word.lean ====
section
/-! DEFINITION. Word types: the 32-bit register, the byte, the 42-bit device address and the sparse memories' type. -/

namespace Sys2Proof

/-- A register, or a little-endian 32-bit word of memory (R11). -/
abbrev Word := BitVec 32

/-- One byte. -/
abbrev Byte := BitVec 8

/-- A W36 bin element (R100): S in bit 35, E in [34:27], M in [26:0]. -/
abbrev W36 := BitVec 36

/-- A sparse map from addresses to words: a list of pairs, its keys strictly rising, no pair equal to what an unlisted
key reads as. The operations that keep this form stand in Machine/Maps.lean. -/
abbrev CMap (w : Nat) := List (Nat × BitVec w)

end Sys2Proof
end

