-- ==== Sys2Proof/Syntax.lean ====
section
/-! DEFINITION. The commands the block takes, one constructor per row of the spec's table of operations and events
(opcode_table.json), with the operands the row needs: which unit the step happens at, which master makes it, and what
comes from outside the module (readings, flits, host data, outcomes of a test). -/

namespace Sys2Proof

abbrev BarnId := Fin 8
abbrev EngId := Fin 64
abbrev FlumeId := Fin 32
abbrev StackId := Fin 16
abbrev PortId := Fin 24
abbrev FpId := Fin 4
abbrev JobId := Fin 16

/-- The masters that may access the Register window (R463); `fp 0` to `fp 3` are FP-B, FP-M, FP-L, FP-P. -/
inductive Writer where
  | host | mgmt | fp (k : FpId)
deriving DecidableEq, Repr

/-- What an error code of a memory or a link made of the bits it read, where nothing in the state forces it: a correction in one word,
and in `more` words besides. -/
inductive Upset where
  | clean
  | corrected (more : Nat := 0)
  | uncorrectable
deriving DecidableEq, Repr

/-- Parity of the sluice entry that carried an access (R399). -/
inductive SluiceParity where
  | good | badData | badCredit
deriving DecidableEq, Repr

/-- An operand that comes with a memory read, and what the memory's code made of that read (R62, R131, R190). -/
structure Coded (α : Type) where
  val : α
  upset : Upset
deriving DecidableEq, Repr

/-- An operand of a step that may draw from the Spring, and the seed register whose parity fails by then where nothing in the state
forces it (R122): SEED0 to SEED3, CC_SEED0 to CC_SEED3, STEP. -/
structure Drawn (α : Type) where
  val : α
  seed : Option (Fin 9) := none
deriving DecidableEq, Repr

/-- An operand that crosses a sluice, and the parity of its entry (R399). -/
structure Sluiced (α : Type) where
  val : α
  sluice : SluiceParity
deriving DecidableEq, Repr

/-- A host access to the Memory window (R442): any size, any byte enables. -/
inductive MemAccess where
  | read (off : BitVec 36) (n : Nat)
  | write (off : BitVec 36) (data : List Byte) (enables : List Bool)
deriving DecidableEq, Repr

/-- A line access of a master to device memory (R240), within one 64-byte line. -/
inductive LineAccess where
  | read
  | write (data : List Byte) (enables : List Bool)
deriving DecidableEq, Repr

/-- A flit as it arrives (R300): its 20-bit tag, its 640 body bytes, the lane that carried it, and what the lane's FEC
made of its codeword (R298). -/
structure Flit where
  tag : BitVec 20
  body : List Byte
  lane : Fin 4
  fec : Upset
deriving DecidableEq, Repr

/-- The sensor readings of one Gauge sample (R363); `none` is a reading that failed parity (R365). Pace beats per engine,
eight core voltages and 24 junction temperatures per die (West first), 17 temperatures per stack, input voltage in
10 mV and input current in 10 mA. -/
structure Readings where
  pace : List (Option Nat)
  vcore : List (Option Nat)
  tj : List (Option Nat)
  stack : List (Option Nat)
  vin : Option Nat
  iin : Option Nat
deriving DecidableEq, Repr

/-- A supply rail with a monitor (R378). -/
inductive Rail where
  | input | coreWest | coreEast
deriving DecidableEq, Repr

/-- The reset crossing of a rail (R381), and whether the input stands above 46.5 V as it comes (R382). -/
structure Crossing where
  rail : Rail
  inputOn : Bool
deriving DecidableEq, Repr

/-- A slice by its name: R407's code and its INST. -/
structure SliceName where
  code : BitVec 4
  inst : BitVec 24
deriving DecidableEq, Repr

/-- What the host link trained to and what the host has enabled on it (R437): FLIT mode, ATS, PRI. -/
structure LinkMode where
  flit : Bool
  ats : Bool
  pri : Bool
deriving DecidableEq, Repr

/-- A host access to the Bell window (R443): a write of 4 bytes, or a read of 4 bytes. -/
inductive BellAccess where
  | write (v : Word)
  | read
deriving DecidableEq, Repr

/-- The data of a register write: 4 bytes, or 8 as two words in ascending address (R441). -/
structure RegData where
  lo : Word
  hi : Option Word := none
deriving DecidableEq, Repr

/-- A register read whose value has an effect besides (R43, R236, R296, R355, R394): the unit or master it names, its sluice entry, and
whether the host reads 8 bytes, two words in ascending address (R441). -/
structure RegRead (α : Type) where
  val : α
  sluice : SluiceParity := .good
  wide : Bool := false
deriving DecidableEq, Repr

/-- A host access that no window takes as R441 to R443 ask: of the Register window, or a configuration read (R439). -/
inductive OtherAccess where
  | read | write | configRead
deriving DecidableEq, Repr

/-- The binding that an MCTP packet comes by (R450): SMBus at 100 kHz, 400 kHz or 1 MHz, or PCIe. -/
inductive MctpBinding where
  | smbus (speed : Fin 3)
  | pcieVdm
deriving DecidableEq, Repr

/-- An operand that MCTP packets bring: their binding, and whether every header and length is good (R480). -/
structure Mctp (α : Type) where
  val : α
  via : MctpBinding := .smbus 0
  whole : Bool := true
deriving DecidableEq, Repr

/-- The straps of R454, as sampled. -/
structure Straps where
  smbAddr : BitVec 2
  pcieEn : Bool
  testMode : Bool
deriving DecidableEq, Repr

/-- Device memory channels of a stack. -/
inductive Tier where
  | pond | lake
deriving DecidableEq, Repr

/-- What the tests, trainings and analyses of a start found (R411, R412, R430, R431): the units that failed (engines by an
array test, or by a Crib or Winnow test), a block whose failure fails the start, the stacks whose recorded values did not serve, the
spare rows left of each stack's banks (Pond, Lake) but for the banks of the list after it, the rows assigned, each stack's present
temperature in °C. The outcome is that of the steps up to `upTo`: the whole start at 12. -/
structure StartOutcome where
  upTo : Nat
  engines : List EngId
  engineMem : List EngId
  barns : List BarnId
  channels : List (StackId × Tier)
  mills : List StackId
  ports : List PortId
  flumes : List FlumeId
  blockFailed : Bool
  fuseMapBad : Bool
  retrained : BitVec 16
  spares : List (Nat × Nat)
  bankSpares : List (Nat × Nat)
  rowsSpared : List Nat
  temps : List Nat
deriving DecidableEq, Repr

/-- The host's answer to a page request (R293). -/
inductive PageAnswer where
  | success | invalidRequest | responseFailure
deriving DecidableEq, Repr

/-- What a Weir port waited for when a hop timeout expires (R330). -/
inductive HopWait where
  | upstream
  | tack (tag : BitVec 9)
  | gather
  | tackp (tag : BitVec 9)
  | wack (tag : BitVec 9)
deriving DecidableEq, Repr

/-- The outcome of a slice that ran to its end (R410). -/
inductive SliceResult where
  | passed
  | failed (rows : List (BitVec 42))
deriving DecidableEq, Repr

/-- The sliding windows of R483. -/
inductive WindowId where
  | chk (e : EngId)
  | ce (s : StackId) (row : Nat)
  | lane (p : PortId) (n : Fin 4)
  | csum (p : PortId)
  | brownout
  | restart (k : FpId)
deriving DecidableEq, Repr

/-- The PLDM sensors of R452, and Keilgo's certificate, which the management path reads too (R424). -/
inductive Sensor where
  | inputVoltage | inputCurrent | inputPower
  | junction (east : Bool)
  | stackTemp (s : StackId)
  | pace
  | powerState | locked | fatal
  | certificate
deriving DecidableEq, Repr

/-- The element types of a Mill operation (R246). -/
inductive MillType where
  | fp32 | bf16 | int32 | int64
deriving DecidableEq, Repr

/-- A request that the head tunnels to another node (R345). -/
inductive TunnelOp where
  | regWrite (off : BitVec 26) (data : List Byte)
  | regRead (off : BitVec 26) (words : Nat)
  | memWrite (off : BitVec 36) (data : List Byte)
  | memRead (off : BitVec 36) (words : Nat)
deriving DecidableEq, Repr

/-- The tag pools of R285. -/
inductive TagPool where
  | host
  | pond (s : StackId)
  | lake (s : StackId)
  | weir (p : PortId)
deriving DecidableEq, Repr

/-- The commands. -/
inductive Instr where
  -- barn sequencer: issue of one instruction word
  | nop (b : Coded BarnId)
  | endSeg (b : Coded BarnId)
  | yieldSeg (b : Coded BarnId)
  | fallow (b : Coded BarnId)
  | loop (b : Coded BarnId)
  | endloop (b : Coded BarnId)
  | wait (b : Coded BarnId)
  | signal (b : Coded BarnId)
  | opx (b : Coded BarnId)
  | opxw (b : Coded BarnId)
  | swapbin (b : Coded BarnId)
  | binrd (b : Coded BarnId)
  | binwr (b : Coded BarnId)
  | wcfg (b : Coded BarnId)
  | drain (b : Coded BarnId)
  | fill (b : Coded BarnId)
  | spill (b : Coded BarnId)
  | sendw (b : Coded BarnId)
  | millop (b : Coded BarnId)
  -- barn and engine steps
  | signalSend (b : BarnId)
  | segmentBoundary (b : BarnId)
  | arrayStep (e : Drawn EngId)
  | completionTokenReturn (e : EngId) (bin : Fin 2)
  | carriedSpill (e : EngId)
  | drainStart (e : EngId)
  | winnowRow (e : Coded (Drawn EngId))
  | weirTileHandover (e : EngId)
  | generatorRun (e : Coded EngId) (n : Sluiced (Fin 8))
  | writeGeneratorWrite (e : EngId) (n : Sluiced (Fin 8))
  | movementComplete (e : EngId)
  | segRestartGo (w : Writer) (b : BarnId)
  | start (w : Writer) (b : BarnId)
  | bell (off : BitVec 16) (v : Sluiced BellAccess)
  | stepRestart
  | stepBoundary
  -- Tally
  | txBegin (w : Writer)
  | commit (w : Writer)
  | rollback (w : Writer)
  | rwsWrite (w : Writer) (a : BitVec 26) (v : Word)
  | tallyApply
  | tallyTimeout
  | deadlineMiss (b : BarnId)
  | cadenceTick
  | unitOffline (w : Writer) (v : Word)
  -- slices
  | sliceReqGo (w : Writer) (v : Word)
  | sliceEnd (b : SliceName) (r : SliceResult)
  | sliceOverrun (b : SliceName)
  -- Flumes
  | armGo (w : Writer) (f : FlumeId)
  | descriptorFetch (f : Sluiced FlumeId)
  | flumeElementIssue (f : FlumeId) (hostData : Coded (Sluiced (List Byte)))
  | flumeElementComplete (f : FlumeId) (e : Nat)
  | flumeGroupSignal (f : FlumeId)
  | descriptorBoundary (f : FlumeId)
  | translationComplete (f : FlumeId) (granted : Bool)
  | pageRequestResponse (f : FlumeId) (a : PageAnswer)
  | invalidationRequest (va : BitVec 64) (bytes : Nat)
  | hostErrorCompletion (f : FlumeId)
  | completionTimeout (f : FlumeId)
  | restartFromTask (w : Writer) (f : FlumeId)
  | restartFromSnapshot (w : Writer) (f : FlumeId)
  | restartClear (w : Writer) (f : FlumeId)
  | tagGrant (pool : TagPool)
  -- Weir
  | linkTraining (p : PortId) (offer : Nat) (equalised : Bool) (lanes : BitVec 4)
  | flitReceive (p : PortId) (flit : Flit) (sluice : SluiceParity)
  | replayTimeout (p : PortId)
  | tmoLink (p : PortId)
  | weirPacketSend (p : Sluiced PortId)
  | ack (p : PortId)
  | nak (p : PortId)
  | credit (p : PortId)
  | tack (p : PortId)
  | slow (p : PortId)
  | abort (p : PortId)
  | resume (p : PortId)
  | verdict (p : PortId)
  | lane (p : PortId)
  | telemetry (p : PortId)
  | brow (p : PortId)
  | frow (p : PortId)
  | grow (p : PortId)
  | exprec (p : PortId)
  | agree (p : PortId)
  | twrite (p : PortId)
  | tackp (p : PortId)
  | wack (p : PortId)
  | rdata (p : PortId)
  | rwr (p : PortId)
  | rrd (p : PortId)
  | mwr (p : PortId)
  | mrd (p : PortId)
  | cpl (p : PortId)
  | reduceAdd (p : PortId)
  | bucketGroup (p : PortId)
  | hopTimeout (p : PortId) (what : HopWait)
  | bulkTmo (f : FlumeId)
  | verdictInputReady (j : JobId)
  | allgatherStart (j : JobId)
  -- memory and Mill
  | millAdd (m : BitVec 6) (ty : MillType) (a : BitVec 42) (x : BitVec 64)
  | millMin (m : BitVec 6) (ty : MillType) (a : BitVec 42) (x : BitVec 64)
  | millMax (m : BitVec 6) (ty : MillType) (a : BitVec 42) (x : BitVec 64)
  | millStore (m : BitVec 6) (ty : MillType) (a : BitVec 42) (x : BitVec 64)
  | adamw (s : StackId)
  | sgdm (s : StackId)
  | copy (s : StackId)
  | cast (s : StackId)
  | verdictCtrlRun (w : Writer) (s : StackId)
  | verdictCtrlSkip (w : Writer) (s : StackId)
  | release (w : Writer) (s : StackId)
  | memoryLineAccess (m : BitVec 6) (line : BitVec 36) (acc : LineAccess) (upset : Upset) (sluice : SluiceParity)
  | rowSpare (s : StackId)
  | repairCtrlGo (w : Writer) (s : StackId)
  -- Gauge and supply
  | gaugeSample (r : Readings)
  | brownoutHold (rail : Rail) (reading : Nat)
  | brownoutClear (rail : Rail)
  | supplyReset (rail : Crossing)
  | supplyHighWarn (rail : Rail)
  -- faults, Spring, firmware
  | freezeRelease (w : Writer) (target : BitVec 6)
  | errStatusClear (w : Writer) (a : BitVec 26)
  | userCtrlGo (w : Writer) (v : Drawn Word)
  | wdKick (w : Writer) (k : FpId)
  | watchdog (k : FpId)
  | restart (w : Writer) (k : FpId)
  | svnCommit (w : Writer)
  | attCtrlGo (w : Writer)
  | attestationDone
  | firmwareUpdate (k : FpId) (manifest : List Byte) (image : List Byte)
  | activateFirmware
  -- starts and supply of the module
  | powerOn (straps : Straps) (tjMax : Nat)
  | junctionReady
  | powerCycle
  | warm (w : Writer)
  | cold (w : Writer)
  | startComplete (o : StartOutcome)
  | startTimeout
  | forceCold
  | modRstN
  | perstN
  | hotReset
  | functionLevelReset
  | dlDown
  | d3hotEntry
  | d0Return
  | refclk100Loss
  | refclk156Loss
  -- host interface
  | reqMaj (w : Writer) (v : BitVec 4)
  | winBase (w : Writer) (v : Word)
  | memoryWindowAccess (acc : MemAccess) (sluice : SluiceParity)
  | badAccess (a : OtherAccess)
  | tunnelRequest (op : Sluiced TunnelOp)
  | tunCtrl (w : Writer) (v : Word)
  | tunTmo (tag : Fin 64)
  | tunnelErrClear (w : Writer)
  | msixUnmask (v : Fin 64)
  | lock (w : Writer)
  | granaryWindowWrite (w : Writer) (a : BitVec 26) (data : Sluiced (List Byte))
  | absentPageWrite (w : Writer) (a : BitVec 26) (v : Word)
  | registerWrite (w : Writer) (a : BitVec 26) (v : Sluiced RegData)
  | workBeatsLo (w : Writer) (e : RegRead EngId)
  | paceBeatsLo (w : Writer) (e : RegRead EngId)
  | doneLo (w : Writer) (f : RegRead FlumeId)
  | flBytesLo (w : Writer) (f : RegRead FlumeId)
  | glTimeLo (w : RegRead Writer)
  | snapDataRead (w : Writer) (b : RegRead BarnId)
  | snapDataWrite (w : Writer) (b : BarnId) (v : Word)
  | load (w : Writer) (b : BarnId)
  | thermCfg (w : Writer) (s : StackId) (v : Word)
  | tallyTimeoutWrite (w : Writer) (v : Word)
  | wdPeriod (w : Writer) (k : FpId) (v : Word)
  | boPace (w : Writer) (v : Word)
  | fwPace (w : Writer) (v : Word)
  -- management port and test port
  | mctpRead (off : Mctp (BitVec 32)) (count : Sluiced Nat)
  | mctpWrite (off : Mctp (BitVec 32)) (words : Sluiced (List Word))
  | pldmModuleStart (coldStart : Mctp Bool)
  | pldmMasterRelease (id : Mctp (BitVec 6))
  | pldmSensorRead (sensor : Mctp Sensor)
  | setEventReceiver (eid : Mctp (BitVec 8)) (pcie : Bool)
  | endpointIdAssign (via : MctpBinding) (eid : BitVec 8)
  | bypass
  | idcode
  | samplePreload (shiftIn : List Bool)
  | extest
  | extestPulse
  -- time and links
  | eventLeavesWindow (wnd : WindowId)
  | localMemoryUncorrectable (k : Coded FpId)
  | hostWindowAccessWaitExpiry
  | pcieLinkUp (rate : Fin 6) (width : Fin 5) (mode : LinkMode)
  | stoppedInputCrossing (rising : Bool)
deriving DecidableEq, Repr

end Sys2Proof
end

