-- ==== Sys2Proof/Decode.lean ====
section
/-! DEFINITION. The command a word spells. The spec's table of operations and events gives no row any bits, so no word
spells a command. -/

namespace Sys2Proof

/-- The command read from `nbits` bits numbered as the table numbers them: none, since the table gives no bits. -/
def decodeTableWord (_nbits _w : Nat) : Option Instr := none

end Sys2Proof
end

