-- ==== Sys2Proof/Config.lean ====
section
/-! DEFINITION. What the spec leaves to the part or open: free values (opaque: nothing can evaluate them) and the standard
cryptographic functions the spec names but does not define. -/

namespace Sys2Proof

/-- A fresh 32-bit value the spec leaves open; the argument is the state's free-value counter (assumption 3). -/
opaque Config.free : Nat → BitVec 32

/-- SHA-512 of a byte string (R419), as 64 bytes; the spec names the standard only (assumption 4). -/
opaque Config.sha512 : List (BitVec 8) → List (BitVec 8)

/-- Ed25519 verification of a signature over a message under a public key (R420). -/
opaque Config.ed25519Verify : (key msg sig : List (BitVec 8)) → Bool

/-- Ed25519 signature of a message by the part's identity key (R424, R425). -/
opaque Config.ed25519Sign : (seed msg : List (BitVec 8)) → List (BitVec 8)

/-- The Ed25519 public key of a private seed (R424). -/
opaque Config.ed25519Public : (seed : List (BitVec 8)) → List (BitVec 8)

/-- The corner lane of a bin (R51): the spec says that the array has one and states no value of it, and nothing reads it. Its value after
a step, from its old value and the step's column and row sums; and after a load, from the sum of the loaded content (assumption 78). -/
opaque Config.cornerStep : BitVec 64 → BitVec 64 → BitVec 64 → BitVec 64
opaque Config.cornerLoad : BitVec 64 → BitVec 64

/-- Version, security version and digest of the image a processor's slots are shipped with (assumption 19). -/
opaque Config.factoryVersion : Nat → BitVec 32
opaque Config.factorySvn : Nat → BitVec 6
opaque Config.factoryDigest : Nat → List (BitVec 8)

/-- The image itself, as it stands in local memory. -/
opaque Config.factoryImage : Nat → List (BitVec 8)

/-- The private seed that a first start generates from on-die entropy (R424). -/
opaque Config.entropy : List (BitVec 8)

/-- The row of a die that one of the die's 64-byte lines lies in, by the line's number within its die: the spec gives the dies
no row layout (assumption 11). -/
opaque Config.dieRow : Nat → Nat

/-- The bank of a die's row, whose rows share its spare rows (R263, R264); not in the spec either. -/
opaque Config.dieBank : Nat → Nat

/-- Do bucket-mode rows become BI24 blocks, and not BI16 (R325 names no width)? (assumption 17) -/
opaque Config.bucketBi24 : Bool

end Sys2Proof
end

