-- ==== Sys2Proof/Machine/RegMap.lean ====
section
/-! DEFINITION. The Register window's map (R462 to R465) and every register of the spec's register tables: window
offsets by name, and per register the masks of its field access types (R15) with its reset value. Reserved bits (R6)
stand in no mask. The tables were taken field by field from the spec's own register tables. -/

namespace Sys2Proof

/-- The kinds of page of R462, with the instance where a kind has more than one. -/
inductive Page where
  | global | gleaner | tally | gauge | spring | host | mgmt
  | barn (b : Nat) | engine (e : Nat) | flume (f : Nat)
  | ctl (s : Nat) | mad (s : Nat) | mkv (s : Nat) | rep (s : Nat)
  | port (p : Nat) | fp (k : Nat) | fpLog (k : Nat)
  | granary (b : Nat)
  | unassigned
deriving DecidableEq, Repr

/-- One register table row: `count` registers at `off`, `off + stride`, ...; the masks say which bits have which access
type of R15 (a bit in no mask is read-only or reserved). -/
structure RegDef where
  off : Nat
  stride : Nat
  count : Nat
  rw : BitVec 32
  w1c : BitVec 32
  rws : BitVec 32
  rwl : BitVec 32
  wo : BitVec 32
  reset : BitVec 32
deriving DecidableEq, Repr

/-! Registers of the header page. -/
abbrev Reg.header.ID : Nat := 0x000
abbrev Reg.header.VERSION : Nat := 0x004
abbrev Reg.header.CAPS : Nat := 0x008
abbrev Reg.header.CTRL : Nat := 0x00C
abbrev Reg.header.STATUS : Nat := 0x010
abbrev Reg.header.ERR_STATUS : Nat := 0x014
abbrev Reg.header.ERR_MASK : Nat := 0x018
abbrev Reg.header.ERR_INJECT : Nat := 0x01C
abbrev Reg.header.FREEZE : Nat := 0x020
abbrev Reg.header.TALLY : Nat := 0x024
abbrev Reg.header.EPOCH : Nat := 0x028

/-! Registers of the global page. -/
abbrev Reg.global.page : Nat := 0x0000000
abbrev Reg.global.PART : Nat := Reg.global.page + 0x040
abbrev Reg.global.SERIAL_LO : Nat := Reg.global.page + 0x044
abbrev Reg.global.SERIAL_HI : Nat := Reg.global.page + 0x048
abbrev Reg.global.FUSE_MAP : Nat := Reg.global.page + 0x04C
abbrev Reg.global.ENG_PRESENT_LO : Nat := Reg.global.page + 0x050
abbrev Reg.global.ENG_PRESENT_HI : Nat := Reg.global.page + 0x054
abbrev Reg.global.LOCK : Nat := Reg.global.page + 0x058
abbrev Reg.global.ENG_COUNT : Nat := Reg.global.page + 0x05C
abbrev Reg.global.FLOOR_BEAT : Nat := Reg.global.page + 0x070
abbrev Reg.global.FLOOR_COND : Nat := Reg.global.page + 0x074
abbrev Reg.global.AVAIL_EPOCH : Nat := Reg.global.page + 0x080
abbrev Reg.global.UNIT_OFFLINE : Nat := Reg.global.page + 0x084
abbrev Reg.global.MODULE_ID : Nat := Reg.global.page + 0x0A0
abbrev Reg.global.COLL_TABLE_LO : Nat := Reg.global.page + 0x0A4
abbrev Reg.global.COLL_TABLE_HI : Nat := Reg.global.page + 0x0A8
abbrev Reg.global.COLL_CTRL : Nat := Reg.global.page + 0x0AC
abbrev Reg.global.ROUTE_BASE_LO : Nat := Reg.global.page + 0x0B0
abbrev Reg.global.ROUTE_BASE_HI : Nat := Reg.global.page + 0x0B4
abbrev Reg.global.CHAN_TABLE_LO : Nat := Reg.global.page + 0x0B8
abbrev Reg.global.CHAN_TABLE_HI : Nat := Reg.global.page + 0x0BC
abbrev Reg.global.BARN_JOB0 : Nat := Reg.global.page + 0x0C0
abbrev Reg.global.BARN_JOB1 : Nat := Reg.global.page + 0x0C4
abbrev Reg.global.BULK_TMO : Nat := Reg.global.page + 0x0C8
abbrev Reg.global.ROSTER (i : Nat) : Nat := Reg.global.page + (0x100 + 4 * i)
abbrev Reg.global.VERDICT (i : Nat) : Nat := Reg.global.page + (0x140 + 4 * i)
abbrev Reg.global.PM_SEQ (i : Nat) : Nat := Reg.global.page + (0x180 + 4 * i)
abbrev Reg.global.PM_STATE (i : Nat) : Nat := Reg.global.page + (0x190 + 4 * i)
abbrev Reg.global.STEP_SIG : Nat := Reg.global.page + 0x198
abbrev Reg.global.CKPT_REC_LO : Nat := Reg.global.page + 0x19C
abbrev Reg.global.CKPT_REC_HI : Nat := Reg.global.page + 0x1A0
abbrev Reg.global.TUN_CTRL : Nat := Reg.global.page + 0x1C0
abbrev Reg.global.TUN_STATUS : Nat := Reg.global.page + 0x1C4
abbrev Reg.global.TUN_TMO : Nat := Reg.global.page + 0x1C8
abbrev Reg.global.LSD_CTRL : Nat := Reg.global.page + 0x1E0
abbrev Reg.global.LSD_ADDR_LO : Nat := Reg.global.page + 0x1E4
abbrev Reg.global.LSD_ADDR_HI : Nat := Reg.global.page + 0x1E8
abbrev Reg.global.LSD_K : Nat := Reg.global.page + 0x1EC
abbrev Reg.global.LSD_ALPHA : Nat := Reg.global.page + 0x1F0
abbrev Reg.global.LSD_MEAN : Nat := Reg.global.page + 0x1F4
abbrev Reg.global.LSD_VAR : Nat := Reg.global.page + 0x1F8
abbrev Reg.global.LSD_COUNT : Nat := Reg.global.page + 0x1FC
abbrev Reg.global.LSD_LAST : Nat := Reg.global.page + 0x200
abbrev Reg.global.VERIFY_EXPECT : Nat := Reg.global.page + 0x204
abbrev Reg.global.START_STATUS : Nat := Reg.global.page + 0x220
abbrev Reg.global.START_CTRL : Nat := Reg.global.page + 0x224
abbrev Reg.global.START_TIME : Nat := Reg.global.page + 0x228
abbrev Reg.global.TRAIN_REC : Nat := Reg.global.page + 0x22C

/-! Registers of the gleaner page. -/
abbrev Reg.gleaner.page : Nat := 0x0001000
abbrev Reg.gleaner.FSW0 : Nat := Reg.gleaner.page + 0x040
abbrev Reg.gleaner.FSW1 : Nat := Reg.gleaner.page + 0x044
abbrev Reg.gleaner.FSW2 : Nat := Reg.gleaner.page + 0x048
abbrev Reg.gleaner.FSW3 : Nat := Reg.gleaner.page + 0x04C
abbrev Reg.gleaner.GL_TIME_LO : Nat := Reg.gleaner.page + 0x050
abbrev Reg.gleaner.GL_TIME_HI : Nat := Reg.gleaner.page + 0x054
abbrev Reg.gleaner.LOG_HEAD : Nat := Reg.gleaner.page + 0x058
abbrev Reg.gleaner.LOG_SEL : Nat := Reg.gleaner.page + 0x05C
abbrev Reg.gleaner.LOG_DATA (i : Nat) : Nat := Reg.gleaner.page + (0x060 + 4 * i)
abbrev Reg.gleaner.CLASS_CNT (i : Nat) : Nat := Reg.gleaner.page + (0x070 + 4 * i)
abbrev Reg.gleaner.IRQ_MASK : Nat := Reg.gleaner.page + 0x088
abbrev Reg.gleaner.PIN_MASK : Nat := Reg.gleaner.page + 0x08C
abbrev Reg.gleaner.RET_ENG_LO : Nat := Reg.gleaner.page + 0x090
abbrev Reg.gleaner.RET_ENG_HI : Nat := Reg.gleaner.page + 0x094
abbrev Reg.gleaner.RET_CHAN : Nat := Reg.gleaner.page + 0x098
abbrev Reg.gleaner.RET_PORT : Nat := Reg.gleaner.page + 0x09C
abbrev Reg.gleaner.RET_FLUME : Nat := Reg.gleaner.page + 0x0A0
abbrev Reg.gleaner.GL_STATE : Nat := Reg.gleaner.page + 0x0A4
abbrev Reg.gleaner.SLICE_REQ : Nat := Reg.gleaner.page + 0x0B0
abbrev Reg.gleaner.SLICE_STATUS : Nat := Reg.gleaner.page + 0x0B4
abbrev Reg.gleaner.SLICE_PEND : Nat := Reg.gleaner.page + 0x0B8

/-! Registers of the tally page. -/
abbrev Reg.tally.page : Nat := 0x0002000
abbrev Reg.tally.TX_CTRL : Nat := Reg.tally.page + 0x040
abbrev Reg.tally.TX_STATUS : Nat := Reg.tally.page + 0x044
abbrev Reg.tally.TX_ID : Nat := Reg.tally.page + 0x048
abbrev Reg.tally.TX_SHADOWS : Nat := Reg.tally.page + 0x04C
abbrev Reg.tally.TALLY_TIMEOUT : Nat := Reg.tally.page + 0x050
abbrev Reg.tally.TX_WAIT : Nat := Reg.tally.page + 0x054
abbrev Reg.tally.TX_WAIT_FL : Nat := Reg.tally.page + 0x058
abbrev Reg.tally.TX_ELAPSED : Nat := Reg.tally.page + 0x05C
abbrev Reg.tally.TX_COUNT : Nat := Reg.tally.page + 0x060
abbrev Reg.tally.ADM_TABLE_LO : Nat := Reg.tally.page + 0x100
abbrev Reg.tally.ADM_TABLE_HI : Nat := Reg.tally.page + 0x104
abbrev Reg.tally.ADM_CTRL : Nat := Reg.tally.page + 0x108
abbrev Reg.tally.ADM_STATUS : Nat := Reg.tally.page + 0x10C
abbrev Reg.tally.ADM_MARGIN : Nat := Reg.tally.page + 0x110
abbrev Reg.tally.ADM_EPOCH : Nat := Reg.tally.page + 0x114
abbrev Reg.tally.ADM_RISK : Nat := Reg.tally.page + 0x118
abbrev Reg.tally.ADM_MISS : Nat := Reg.tally.page + 0x11C
abbrev Reg.tally.ADM_LAT (i : Nat) : Nat := Reg.tally.page + (0x120 + 8 * i)
abbrev Reg.tally.ADM_RATE (i : Nat) : Nat := Reg.tally.page + (0x124 + 8 * i)
abbrev Reg.tally.CAD_PERIOD : Nat := Reg.tally.page + 0x150
abbrev Reg.tally.CAD_SLIP : Nat := Reg.tally.page + 0x154
abbrev Reg.tally.REC_LIVE (i : Nat) : Nat := Reg.tally.page + (0x160 + 4 * i)

/-! Registers of the gauge page. -/
abbrev Reg.gauge.page : Nat := 0x0003000
abbrev Reg.gauge.GA_STATUS : Nat := Reg.gauge.page + 0x040
abbrev Reg.gauge.VCORE_SET : Nat := Reg.gauge.page + 0x044
abbrev Reg.gauge.VCORE_MEAS : Nat := Reg.gauge.page + 0x048
abbrev Reg.gauge.PACE_NOW : Nat := Reg.gauge.page + 0x04C
abbrev Reg.gauge.INPUT_MEAS : Nat := Reg.gauge.page + 0x050
abbrev Reg.gauge.INPUT_I : Nat := Reg.gauge.page + 0x054
abbrev Reg.gauge.TJ_MAX : Nat := Reg.gauge.page + 0x058
abbrev Reg.gauge.PLIMIT : Nat := Reg.gauge.page + 0x05C
abbrev Reg.gauge.PL_EXCESS : Nat := Reg.gauge.page + 0x060
abbrev Reg.gauge.POL_BEAT : Nat := Reg.gauge.page + 0x064
abbrev Reg.gauge.POL_VMAX : Nat := Reg.gauge.page + 0x068
abbrev Reg.gauge.POL_PCAP : Nat := Reg.gauge.page + 0x06C
abbrev Reg.gauge.GOV_MODE : Nat := Reg.gauge.page + 0x070
abbrev Reg.gauge.FW_VSET : Nat := Reg.gauge.page + 0x074
abbrev Reg.gauge.FW_PACE : Nat := Reg.gauge.page + 0x078
abbrev Reg.gauge.BO_PACE : Nat := Reg.gauge.page + 0x07C
abbrev Reg.gauge.BO_WINDOW : Nat := Reg.gauge.page + 0x080
abbrev Reg.gauge.BO_COUNT : Nat := Reg.gauge.page + 0x084
abbrev Reg.gauge.BO_LAST : Nat := Reg.gauge.page + 0x088
abbrev Reg.gauge.BO_LAST_DUR : Nat := Reg.gauge.page + 0x08C
abbrev Reg.gauge.TEL_CTRL : Nat := Reg.gauge.page + 0x090
abbrev Reg.gauge.TEL_BASE_LO : Nat := Reg.gauge.page + 0x094
abbrev Reg.gauge.TEL_BASE_HI : Nat := Reg.gauge.page + 0x098
abbrev Reg.gauge.TEL_DROP : Nat := Reg.gauge.page + 0x09C
abbrev Reg.gauge.SENS_ERR : Nat := Reg.gauge.page + 0x0A0

/-! Registers of the spring page. -/
abbrev Reg.spring.page : Nat := 0x0004000
abbrev Reg.spring.SEED0 : Nat := Reg.spring.page + 0x040
abbrev Reg.spring.SEED1 : Nat := Reg.spring.page + 0x044
abbrev Reg.spring.SEED2 : Nat := Reg.spring.page + 0x048
abbrev Reg.spring.SEED3 : Nat := Reg.spring.page + 0x04C
abbrev Reg.spring.CC_SEED0 : Nat := Reg.spring.page + 0x050
abbrev Reg.spring.CC_SEED1 : Nat := Reg.spring.page + 0x054
abbrev Reg.spring.CC_SEED2 : Nat := Reg.spring.page + 0x058
abbrev Reg.spring.CC_SEED3 : Nat := Reg.spring.page + 0x05C
abbrev Reg.spring.STEP : Nat := Reg.spring.page + 0x060
abbrev Reg.spring.USER_KEY0 : Nat := Reg.spring.page + 0x064
abbrev Reg.spring.USER_KEY1 : Nat := Reg.spring.page + 0x068
abbrev Reg.spring.USER_KEY2 : Nat := Reg.spring.page + 0x06C
abbrev Reg.spring.USER_KEY3 : Nat := Reg.spring.page + 0x070
abbrev Reg.spring.USER_CTRL : Nat := Reg.spring.page + 0x074
abbrev Reg.spring.USER_OUT0 : Nat := Reg.spring.page + 0x078
abbrev Reg.spring.USER_OUT1 : Nat := Reg.spring.page + 0x07C
abbrev Reg.spring.USER_OUT2 : Nat := Reg.spring.page + 0x080
abbrev Reg.spring.USER_OUT3 : Nat := Reg.spring.page + 0x084

/-! Registers of the host page. -/
abbrev Reg.host.page : Nat := 0x0005000
abbrev Reg.host.HOST_STATUS : Nat := Reg.host.page + 0x040
abbrev Reg.host.WIN_BASE : Nat := Reg.host.page + 0x044
abbrev Reg.host.HOST_ERR : Nat := Reg.host.page + 0x048

/-! Registers of the mgmt page. -/
abbrev Reg.mgmt.page : Nat := 0x0006000
abbrev Reg.mgmt.MGMT_STATUS : Nat := Reg.mgmt.page + 0x040
abbrev Reg.mgmt.MGMT_EVENT : Nat := Reg.mgmt.page + 0x044
abbrev Reg.mgmt.MGMT_ERR : Nat := Reg.mgmt.page + 0x048

/-! Registers of the barn page. -/
abbrev Reg.barn.page (b : Nat) : Nat := 0x0010000 + 0x1000 * b
abbrev Reg.barn.SEQ_STATUS (b : Nat) : Nat := Reg.barn.page b + 0x040
abbrev Reg.barn.SEQ_PC (b : Nat) : Nat := Reg.barn.page b + 0x044
abbrev Reg.barn.SEQ_CTRL (b : Nat) : Nat := Reg.barn.page b + 0x048
abbrev Reg.barn.BANK_SWAP (b : Nat) : Nat := Reg.barn.page b + 0x04C
abbrev Reg.barn.FAULT_PC (b : Nat) : Nat := Reg.barn.page b + 0x050
abbrev Reg.barn.GRANARY_ECC (b : Nat) : Nat := Reg.barn.page b + 0x054
abbrev Reg.barn.CC_SAVE (b : Nat) : Nat := Reg.barn.page b + 0x058
abbrev Reg.barn.LOOP_CNT (b i : Nat) : Nat := Reg.barn.page b + (0x060 + 4 * i)
abbrev Reg.barn.TOKEN (b i : Nat) : Nat := Reg.barn.page b + (0x080 + 4 * i)
abbrev Reg.barn.ENGINE_EN (b : Nat) : Nat := Reg.barn.page b + 0x0C0
abbrev Reg.barn.SEG_RESTART (b : Nat) : Nat := Reg.barn.page b + 0x0C4
abbrev Reg.barn.SEG_START (b : Nat) : Nat := Reg.barn.page b + 0x0C8
abbrev Reg.barn.SEG_SIGNALS (b : Nat) : Nat := Reg.barn.page b + 0x0CC
abbrev Reg.barn.SNAP_CTRL (b : Nat) : Nat := Reg.barn.page b + 0x0D0
abbrev Reg.barn.SNAP_DATA (b : Nat) : Nat := Reg.barn.page b + 0x0D4

/-! Registers of the engine page. -/
abbrev Reg.engine.page (e : Nat) : Nat := 0x0040000 + 0x1000 * e
abbrev Reg.engine.WORK_BEATS_LO (e : Nat) : Nat := Reg.engine.page e + 0x040
abbrev Reg.engine.WORK_BEATS_HI (e : Nat) : Nat := Reg.engine.page e + 0x044
abbrev Reg.engine.PACE_BEATS_LO (e : Nat) : Nat := Reg.engine.page e + 0x048
abbrev Reg.engine.PACE_BEATS_HI (e : Nat) : Nat := Reg.engine.page e + 0x04C
abbrev Reg.engine.BEAT_CTRL (e : Nat) : Nat := Reg.engine.page e + 0x050
abbrev Reg.engine.BEAT_MEAS (e : Nat) : Nat := Reg.engine.page e + 0x054
abbrev Reg.engine.BIN_MAP (e : Nat) : Nat := Reg.engine.page e + 0x058
abbrev Reg.engine.BIN_A_STATE (e : Nat) : Nat := Reg.engine.page e + 0x05C
abbrev Reg.engine.BIN_B_STATE (e : Nat) : Nat := Reg.engine.page e + 0x060
abbrev Reg.engine.BIN_A_STEPS (e : Nat) : Nat := Reg.engine.page e + 0x064
abbrev Reg.engine.BIN_B_STEPS (e : Nat) : Nat := Reg.engine.page e + 0x068
abbrev Reg.engine.CHK_WINDOW (e : Nat) : Nat := Reg.engine.page e + 0x06C
abbrev Reg.engine.CHK_COUNT (e : Nat) : Nat := Reg.engine.page e + 0x070
abbrev Reg.engine.CHK_LAST (e : Nat) : Nat := Reg.engine.page e + 0x074
abbrev Reg.engine.CRIB_ECC (e : Nat) : Nat := Reg.engine.page e + 0x078
abbrev Reg.engine.IQ_LEVEL (e : Nat) : Nat := Reg.engine.page e + 0x07C
abbrev Reg.engine.OQ_LEVEL (e : Nat) : Nat := Reg.engine.page e + 0x080
abbrev Reg.engine.ENGINE_STATE (e : Nat) : Nat := Reg.engine.page e + 0x084
abbrev Reg.engine.SC_NF_TOTAL (e : Nat) : Nat := Reg.engine.page e + 0x088
abbrev Reg.engine.SC_NF_STEP (e : Nat) : Nat := Reg.engine.page e + 0x08C
abbrev Reg.engine.SC_FIRST (e : Nat) : Nat := Reg.engine.page e + 0x090
abbrev Reg.engine.WN_STATUS (e : Nat) : Nat := Reg.engine.page e + 0x094
abbrev Reg.engine.WN_DRAINS (e : Nat) : Nat := Reg.engine.page e + 0x098
abbrev Reg.engine.AG_BASE_LO (e i : Nat) : Nat := Reg.engine.page e + (0x0A0 + 8 * i)
abbrev Reg.engine.AG_BASE_HI (e i : Nat) : Nat := Reg.engine.page e + (0x0A4 + 8 * i)
abbrev Reg.engine.ROW_ORG (e : Nat) : Nat := Reg.engine.page e + 0x0E0
abbrev Reg.engine.COL_ORG (e : Nat) : Nat := Reg.engine.page e + 0x0E4
abbrev Reg.engine.K_ORG (e : Nat) : Nat := Reg.engine.page e + 0x0E8
abbrev Reg.engine.SLOT_ORG (e : Nat) : Nat := Reg.engine.page e + 0x0EC
abbrev Reg.engine.AG_STATUS (e : Nat) : Nat := Reg.engine.page e + 0x0F0

/-! Registers of the flume page. -/
abbrev Reg.flume.page (f : Nat) : Nat := 0x0080000 + 0x1000 * f
abbrev Reg.flume.FL_STATUS (f : Nat) : Nat := Reg.flume.page f + 0x040
abbrev Reg.flume.ARM_ADDR_LO (f : Nat) : Nat := Reg.flume.page f + 0x044
abbrev Reg.flume.ARM_ADDR_HI (f : Nat) : Nat := Reg.flume.page f + 0x048
abbrev Reg.flume.ARM_CTRL (f : Nat) : Nat := Reg.flume.page f + 0x04C
abbrev Reg.flume.CUR_ADDR_LO (f : Nat) : Nat := Reg.flume.page f + 0x050
abbrev Reg.flume.CUR_ADDR_HI (f : Nat) : Nat := Reg.flume.page f + 0x054
abbrev Reg.flume.NEXT_ADDR_LO (f : Nat) : Nat := Reg.flume.page f + 0x058
abbrev Reg.flume.NEXT_ADDR_HI (f : Nat) : Nat := Reg.flume.page f + 0x05C
abbrev Reg.flume.DONE_LO (f : Nat) : Nat := Reg.flume.page f + 0x060
abbrev Reg.flume.DONE_HI (f : Nat) : Nat := Reg.flume.page f + 0x064
abbrev Reg.flume.WATERMARK_LO (f : Nat) : Nat := Reg.flume.page f + 0x068
abbrev Reg.flume.WATERMARK_HI (f : Nat) : Nat := Reg.flume.page f + 0x06C
abbrev Reg.flume.FAULT_VA_LO (f : Nat) : Nat := Reg.flume.page f + 0x070
abbrev Reg.flume.FAULT_VA_HI (f : Nat) : Nat := Reg.flume.page f + 0x074
abbrev Reg.flume.FAULT_INFO (f : Nat) : Nat := Reg.flume.page f + 0x078
abbrev Reg.flume.TOKIN (f : Nat) : Nat := Reg.flume.page f + 0x07C
abbrev Reg.flume.HG_RATE (f : Nat) : Nat := Reg.flume.page f + 0x080
abbrev Reg.flume.HG_BURST (f : Nat) : Nat := Reg.flume.page f + 0x084
abbrev Reg.flume.HG_LEVEL (f : Nat) : Nat := Reg.flume.page f + 0x088
abbrev Reg.flume.SNAP_CUR_LO (f : Nat) : Nat := Reg.flume.page f + 0x08C
abbrev Reg.flume.SNAP_CUR_HI (f : Nat) : Nat := Reg.flume.page f + 0x090
abbrev Reg.flume.SNAP_NEXT_LO (f : Nat) : Nat := Reg.flume.page f + 0x094
abbrev Reg.flume.SNAP_NEXT_HI (f : Nat) : Nat := Reg.flume.page f + 0x098
abbrev Reg.flume.SNAP_TOKIN (f : Nat) : Nat := Reg.flume.page f + 0x09C
abbrev Reg.flume.RESTART (f : Nat) : Nat := Reg.flume.page f + 0x0A0
abbrev Reg.flume.FL_BYTES_LO (f : Nat) : Nat := Reg.flume.page f + 0x0A4
abbrev Reg.flume.FL_BYTES_HI (f : Nat) : Nat := Reg.flume.page f + 0x0A8

/-! Registers of the ctl page. -/
abbrev Reg.ctl.page (s : Nat) : Nat := 0x00C0000 + 0x4000 * s
abbrev Reg.ctl.MEM_STATUS (s : Nat) : Nat := Reg.ctl.page s + 0x040
abbrev Reg.ctl.STACK_TEMP (s : Nat) : Nat := Reg.ctl.page s + 0x044
abbrev Reg.ctl.POND_CE (s : Nat) : Nat := Reg.ctl.page s + 0x048
abbrev Reg.ctl.LAKE_CE (s : Nat) : Nat := Reg.ctl.page s + 0x04C
abbrev Reg.ctl.UE_COUNT (s : Nat) : Nat := Reg.ctl.page s + 0x050
abbrev Reg.ctl.UE_ADDR_LO (s : Nat) : Nat := Reg.ctl.page s + 0x054
abbrev Reg.ctl.UE_ADDR_HI (s : Nat) : Nat := Reg.ctl.page s + 0x058
abbrev Reg.ctl.THERM_CFG (s : Nat) : Nat := Reg.ctl.page s + 0x05C

/-! Registers of the mad page. -/
abbrev Reg.mad.page (s : Nat) : Nat := 0x00C1000 + 0x4000 * s
abbrev Reg.mad.MA_OPS (s : Nat) : Nat := Reg.mad.page s + 0x040
abbrev Reg.mad.MA_INT_WRAP (s : Nat) : Nat := Reg.mad.page s + 0x044
abbrev Reg.mad.MA_STATUS (s : Nat) : Nat := Reg.mad.page s + 0x048

/-! Registers of the mkv page. -/
abbrev Reg.mkv.page (s : Nat) : Nat := 0x00C2000 + 0x4000 * s
abbrev Reg.mkv.MK_TABLE_LO (s : Nat) : Nat := Reg.mkv.page s + 0x040
abbrev Reg.mkv.MK_TABLE_HI (s : Nat) : Nat := Reg.mkv.page s + 0x044
abbrev Reg.mkv.MK_CTRL (s : Nat) : Nat := Reg.mkv.page s + 0x048
abbrev Reg.mkv.GEN_BASE0 (s : Nat) : Nat := Reg.mkv.page s + 0x04C
abbrev Reg.mkv.GEN_BASE1 (s : Nat) : Nat := Reg.mkv.page s + 0x050
abbrev Reg.mkv.GEN_STATUS (s : Nat) : Nat := Reg.mkv.page s + 0x054
abbrev Reg.mkv.GEN_RELEASE (s : Nat) : Nat := Reg.mkv.page s + 0x058
abbrev Reg.mkv.VERDICT (s : Nat) : Nat := Reg.mkv.page s + 0x05C
abbrev Reg.mkv.VERDICT_CTRL (s : Nat) : Nat := Reg.mkv.page s + 0x060
abbrev Reg.mkv.MK_STATUS (s : Nat) : Nat := Reg.mkv.page s + 0x064
abbrev Reg.mkv.MK_SKIPS (s : Nat) : Nat := Reg.mkv.page s + 0x068
abbrev Reg.mkv.LR (s : Nat) : Nat := Reg.mkv.page s + 0x070
abbrev Reg.mkv.BETA1 (s : Nat) : Nat := Reg.mkv.page s + 0x074
abbrev Reg.mkv.BETA2 (s : Nat) : Nat := Reg.mkv.page s + 0x078
abbrev Reg.mkv.EPS (s : Nat) : Nat := Reg.mkv.page s + 0x07C
abbrev Reg.mkv.WD (s : Nat) : Nat := Reg.mkv.page s + 0x080
abbrev Reg.mkv.BC1 (s : Nat) : Nat := Reg.mkv.page s + 0x084
abbrev Reg.mkv.BC2 (s : Nat) : Nat := Reg.mkv.page s + 0x088
abbrev Reg.mkv.GSCALE (s : Nat) : Nat := Reg.mkv.page s + 0x08C

/-! Registers of the rep page. -/
abbrev Reg.rep.page (s : Nat) : Nat := 0x00C3000 + 0x4000 * s
abbrev Reg.rep.SPARE_LEFT (s : Nat) : Nat := Reg.rep.page s + 0x040
abbrev Reg.rep.CE_ROW_THRESH (s : Nat) : Nat := Reg.rep.page s + 0x044
abbrev Reg.rep.CE_WINDOW (s : Nat) : Nat := Reg.rep.page s + 0x048
abbrev Reg.rep.ROWS_SPARED (s : Nat) : Nat := Reg.rep.page s + 0x04C
abbrev Reg.rep.REPAIR_ADDR_LO (s : Nat) : Nat := Reg.rep.page s + 0x050
abbrev Reg.rep.REPAIR_ADDR_HI (s : Nat) : Nat := Reg.rep.page s + 0x054
abbrev Reg.rep.REPAIR_CTRL (s : Nat) : Nat := Reg.rep.page s + 0x058

/-! Registers of the port page. -/
abbrev Reg.port.page (p : Nat) : Nat := 0x0100000 + 0x1000 * p
abbrev Reg.port.PORT_STATUS (p : Nat) : Nat := Reg.port.page p + 0x040
abbrev Reg.port.LANE_RETIRE (p : Nat) : Nat := Reg.port.page p + 0x044
abbrev Reg.port.LANE_WINDOW (p : Nat) : Nat := Reg.port.page p + 0x048
abbrev Reg.port.LANE_FAILS (p : Nat) : Nat := Reg.port.page p + 0x04C
abbrev Reg.port.REPLAY_TOTAL (p : Nat) : Nat := Reg.port.page p + 0x050
abbrev Reg.port.FEC_CE (p : Nat) : Nat := Reg.port.page p + 0x054
abbrev Reg.port.TMO_HOP (p : Nat) : Nat := Reg.port.page p + 0x058
abbrev Reg.port.TMO_LINK (p : Nat) : Nat := Reg.port.page p + 0x05C
abbrev Reg.port.CSUM_COUNT (p : Nat) : Nat := Reg.port.page p + 0x060
abbrev Reg.port.CSUM_WINDOW (p : Nat) : Nat := Reg.port.page p + 0x064
abbrev Reg.port.PROMOTED (p : Nat) : Nat := Reg.port.page p + 0x068
abbrev Reg.port.NF_BLOCKS (p : Nat) : Nat := Reg.port.page p + 0x06C
abbrev Reg.port.CLASS_WEIGHT (p : Nat) : Nat := Reg.port.page p + 0x070
abbrev Reg.port.RING_NOM (p : Nat) : Nat := Reg.port.page p + 0x074
abbrev Reg.port.DISCARDS (p : Nat) : Nat := Reg.port.page p + 0x078

/-! Registers of the fp page. -/
abbrev Reg.fp.page (k : Nat) : Nat := 0x0140000 + 0x10000 * k
abbrev Reg.fp.FP_STATUS (k : Nat) : Nat := Reg.fp.page k + 0x040
abbrev Reg.fp.FP_CTRL (k : Nat) : Nat := Reg.fp.page k + 0x044
abbrev Reg.fp.WD_PERIOD (k : Nat) : Nat := Reg.fp.page k + 0x048
abbrev Reg.fp.WD_KICK (k : Nat) : Nat := Reg.fp.page k + 0x04C
abbrev Reg.fp.RESTARTS (k : Nat) : Nat := Reg.fp.page k + 0x050
abbrev Reg.fp.RESTART_WINDOW (k : Nat) : Nat := Reg.fp.page k + 0x054
abbrev Reg.fp.IMG_VERSION (k : Nat) : Nat := Reg.fp.page k + 0x058
abbrev Reg.fp.IMG_SVN (k : Nat) : Nat := Reg.fp.page k + 0x05C
abbrev Reg.fp.LOG_HEAD (k : Nat) : Nat := Reg.fp.page k + 0x060
abbrev Reg.fp.TRACE_LEVEL (k : Nat) : Nat := Reg.fp.page k + 0x064
abbrev Reg.fp.LOG_WIN (k : Nat) : Nat := Reg.fp.page k + 0x068
abbrev Reg.fp.LOCAL_ECC (k : Nat) : Nat := Reg.fp.page k + 0x06C
abbrev Reg.fp.ID_PUB (k i : Nat) : Nat := Reg.fp.page k + (0x080 + 4 * i)
abbrev Reg.fp.ATT_ADDR_LO (k : Nat) : Nat := Reg.fp.page k + 0x0A0
abbrev Reg.fp.ATT_ADDR_HI (k : Nat) : Nat := Reg.fp.page k + 0x0A4
abbrev Reg.fp.ATT_CTRL (k : Nat) : Nat := Reg.fp.page k + 0x0A8
abbrev Reg.fp.ATT_STATUS (k : Nat) : Nat := Reg.fp.page k + 0x0AC
abbrev Reg.fp.SVN_FUSED (k : Nat) : Nat := Reg.fp.page k + 0x0B0
abbrev Reg.fp.SVN_COMMIT (k : Nat) : Nat := Reg.fp.page k + 0x0B4

/-- Field masks and reset values of the header page (R403, R446, R464). -/
def RegMap.header : List RegDef :=
  [⟨0x000, 4, 1, 0x0, 0x0, 0x0, 0x0, 0x0, 0x101⟩,
   ⟨0x004, 4, 1, 0xF00, 0x0, 0x0, 0x0, 0x0, 0x1⟩,
   ⟨0x008, 4, 1, 0x0, 0x0, 0x0, 0x0, 0x0, 0x1⟩,
   ⟨0x00C, 4, 1, 0x0, 0x0, 0x0, 0x0, 0x0, 0x0⟩,
   ⟨0x010, 4, 1, 0x0, 0x0, 0x0, 0x0, 0x0, 0x0⟩,
   ⟨0x014, 4, 1, 0x0, 0x80000000, 0x0, 0x0, 0x0, 0x0⟩,
   ⟨0x018, 4, 1, 0x7, 0x0, 0x0, 0x0, 0x0, 0x0⟩,
   ⟨0x01C, 4, 1, 0xFFFFFFFF, 0x0, 0x0, 0x0, 0x0, 0x0⟩,
   ⟨0x020, 4, 1, 0x0, 0x1, 0x0, 0x0, 0x0, 0x0⟩,
   ⟨0x024, 4, 1, 0x0, 0x0, 0x0, 0x0, 0x0, 0x0⟩,
   ⟨0x028, 4, 1, 0x0, 0x0, 0x0, 0x0, 0x0, 0x0⟩]

/-- Field masks and reset values of the global page (R39, R236, R339, R361, R436, R478). -/
def RegMap.global : List RegDef :=
  [⟨0x040, 4, 1, 0x0, 0x0, 0x0, 0x0, 0x0, 0x106440⟩,
   ⟨0x044, 4, 1, 0x0, 0x0, 0x0, 0x0, 0x0, 0x0⟩,
   ⟨0x048, 4, 1, 0x0, 0x0, 0x0, 0x0, 0x0, 0x0⟩,
   ⟨0x04C, 4, 1, 0x0, 0x0, 0x0, 0x0, 0x0, 0x0⟩,
   ⟨0x050, 4, 1, 0x0, 0x0, 0x0, 0x0, 0x0, 0x0⟩,
   ⟨0x054, 4, 1, 0x0, 0x0, 0x0, 0x0, 0x0, 0x0⟩,
   ⟨0x058, 4, 1, 0x0, 0x0, 0x0, 0x0, 0x1, 0x0⟩,
   ⟨0x05C, 4, 1, 0x0, 0x0, 0x0, 0x0, 0x0, 0x0⟩,
   ⟨0x070, 4, 1, 0x0, 0x0, 0x0, 0x0, 0x0, 0x2D0⟩,
   ⟨0x074, 4, 1, 0x0, 0x0, 0x0, 0x0, 0x0, 0x6902A8⟩,
   ⟨0x080, 4, 1, 0x0, 0x0, 0x0, 0x0, 0x0, 0x0⟩,
   ⟨0x084, 4, 1, 0x0, 0x0, 0x0, 0x0, 0x80000FFF, 0x0⟩,
   ⟨0x0A0, 4, 1, 0x0, 0x0, 0x3FFF, 0x0, 0x0, 0x0⟩,
   ⟨0x0A4, 4, 1, 0x0, 0x0, 0xFFFFFFC0, 0x0, 0x0, 0x0⟩,
   ⟨0x0A8, 4, 1, 0x0, 0x0, 0x3FF, 0x0, 0x0, 0x0⟩,
   ⟨0x0AC, 4, 1, 0x0, 0x0, 0x3FF, 0x0, 0x0, 0x0⟩,
   ⟨0x0B0, 4, 1, 0x0, 0x0, 0xFFFFFF00, 0x0, 0x0, 0x0⟩,
   ⟨0x0B4, 4, 1, 0x0, 0x0, 0x3FF, 0x0, 0x0, 0x0⟩,
   ⟨0x0B8, 4, 1, 0x0, 0x0, 0xFFFFFF00, 0x0, 0x0, 0x0⟩,
   ⟨0x0BC, 4, 1, 0x0, 0x0, 0x3FF, 0x0, 0x0, 0x0⟩] ++
  [⟨0x0C0, 4, 1, 0x0, 0x0, 0xFFFFFFFF, 0x0, 0x0, 0x0⟩,
   ⟨0x0C4, 4, 1, 0x0, 0x0, 0xFFFFFFFF, 0x0, 0x0, 0x0⟩,
   ⟨0x0C8, 4, 1, 0xFFFFFF, 0x0, 0x0, 0x0, 0x0, 0x2710⟩,
   ⟨0x100, 4, 16, 0x0, 0x0, 0xFFFF, 0x0, 0x0, 0x0⟩,
   ⟨0x140, 4, 16, 0x0, 0x0, 0x0, 0x0, 0x0, 0x0⟩,
   ⟨0x180, 4, 4, 0x0, 0x0, 0xFFFFFFFF, 0x0, 0x0, 0x0⟩,
   ⟨0x190, 4, 2, 0x0, 0x0, 0x0, 0x0, 0x0, 0x0⟩,
   ⟨0x198, 4, 1, 0x0, 0x0, 0xFFFFFFF, 0x0, 0x0, 0x0⟩,
   ⟨0x19C, 4, 1, 0x0, 0x0, 0xFFFFF000, 0x0, 0x0, 0x0⟩,
   ⟨0x1A0, 4, 1, 0x0, 0x0, 0x800003FF, 0x0, 0x0, 0x0⟩,
   ⟨0x1C0, 4, 1, 0xFFFFFF, 0x0, 0x0, 0x0, 0x0, 0x0⟩,
   ⟨0x1C4, 4, 1, 0x0, 0x100, 0x0, 0x0, 0x0, 0x0⟩,
   ⟨0x1C8, 4, 1, 0xFFFFFF, 0x0, 0x0, 0x0, 0x0, 0x3E8⟩,
   ⟨0x1E0, 4, 1, 0xFFFF0003, 0xC, 0x0, 0x0, 0x0, 0x640000⟩,
   ⟨0x1E4, 4, 1, 0xFFFFFFFC, 0x0, 0x0, 0x0, 0x0, 0x0⟩,
   ⟨0x1E8, 4, 1, 0x3FF, 0x0, 0x0, 0x0, 0x0, 0x0⟩,
   ⟨0x1EC, 4, 1, 0xFFFFFFFF, 0x0, 0x0, 0x0, 0x0, 0x40C00000⟩,
   ⟨0x1F0, 4, 1, 0xFFFFFFFF, 0x0, 0x0, 0x0, 0x0, 0x3C000000⟩,
   ⟨0x1F4, 4, 1, 0x0, 0x0, 0xFFFFFFFF, 0x0, 0x0, 0x0⟩,
   ⟨0x1F8, 4, 1, 0x0, 0x0, 0xFFFFFFFF, 0x0, 0x0, 0x0⟩] ++
  [⟨0x1FC, 4, 1, 0x0, 0x0, 0xFFFF, 0x0, 0x0, 0x0⟩,
   ⟨0x200, 4, 1, 0x0, 0x0, 0x0, 0x0, 0x0, 0x0⟩,
   ⟨0x204, 4, 1, 0xFFFFFFFF, 0x0, 0x0, 0x0, 0x0, 0x0⟩,
   ⟨0x220, 4, 1, 0x0, 0x0, 0x0, 0x0, 0x0, 0x0⟩,
   ⟨0x224, 4, 1, 0x0, 0x0, 0x0, 0x0, 0x3, 0x0⟩,
   ⟨0x228, 4, 1, 0x0, 0x0, 0x0, 0x0, 0x0, 0x0⟩,
   ⟨0x22C, 4, 1, 0x0, 0x0, 0x0, 0x0, 0x0, 0x0⟩]

/-- Field masks and reset values of the gleaner page (R394). -/
def RegMap.gleaner : List RegDef :=
  [⟨0x040, 4, 1, 0x0, 0xFFFFFFFF, 0x0, 0x0, 0x0, 0x0⟩,
   ⟨0x044, 4, 1, 0x0, 0xFFFFFFFF, 0x0, 0x0, 0x0, 0x0⟩,
   ⟨0x048, 4, 1, 0x0, 0xFFFFFFFF, 0x0, 0x0, 0x0, 0x0⟩,
   ⟨0x04C, 4, 1, 0x0, 0x7FFFFFF, 0x0, 0x0, 0x0, 0x0⟩,
   ⟨0x050, 4, 1, 0x0, 0x0, 0x0, 0x0, 0x0, 0x0⟩,
   ⟨0x054, 4, 1, 0x0, 0x0, 0x0, 0x0, 0x0, 0x0⟩,
   ⟨0x058, 4, 1, 0x0, 0x0, 0x0, 0x0, 0x0, 0x0⟩,
   ⟨0x05C, 4, 1, 0xFF, 0x0, 0x0, 0x0, 0x0, 0x0⟩,
   ⟨0x060, 4, 4, 0x0, 0x0, 0x0, 0x0, 0x0, 0x0⟩,
   ⟨0x070, 4, 5, 0x0, 0x0, 0x0, 0x0, 0x0, 0x0⟩,
   ⟨0x088, 4, 1, 0x1F, 0x0, 0x0, 0x0, 0x0, 0x1⟩,
   ⟨0x08C, 4, 1, 0xF, 0x0, 0x0, 0x0, 0x0, 0x18⟩,
   ⟨0x090, 4, 1, 0x0, 0x0, 0x0, 0x0, 0x0, 0x0⟩,
   ⟨0x094, 4, 1, 0x0, 0x0, 0x0, 0x0, 0x0, 0x0⟩,
   ⟨0x098, 4, 1, 0x0, 0x0, 0x0, 0x0, 0x0, 0x0⟩,
   ⟨0x09C, 4, 1, 0x0, 0x0, 0x0, 0x0, 0x0, 0x0⟩,
   ⟨0x0A0, 4, 1, 0x0, 0x0, 0x0, 0x0, 0x0, 0x0⟩,
   ⟨0x0A4, 4, 1, 0x0, 0x0, 0x0, 0x0, 0x0, 0x0⟩,
   ⟨0x0B0, 4, 1, 0xFFFFFFF, 0x0, 0x0, 0x0, 0x80000000, 0x0⟩,
   ⟨0x0B4, 4, 1, 0x0, 0x0, 0x0, 0x0, 0x0, 0x0⟩] ++
  [⟨0x0B8, 4, 1, 0x0, 0x0, 0x0, 0x0, 0x0, 0x0⟩]

/-- Field masks and reset values of the tally page (R238, R477). -/
def RegMap.tally : List RegDef :=
  [⟨0x040, 4, 1, 0x0, 0x0, 0x0, 0x0, 0x7, 0x0⟩,
   ⟨0x044, 4, 1, 0x0, 0x0, 0x0, 0x0, 0x0, 0x1C⟩,
   ⟨0x048, 4, 1, 0x0, 0x0, 0x0, 0x0, 0x0, 0x0⟩,
   ⟨0x04C, 4, 1, 0x0, 0x0, 0x0, 0x0, 0x0, 0x0⟩,
   ⟨0x050, 4, 1, 0xFFFF, 0x0, 0x0, 0x0, 0x0, 0x64⟩,
   ⟨0x054, 4, 1, 0x0, 0x0, 0x0, 0x0, 0x0, 0x0⟩,
   ⟨0x058, 4, 1, 0x0, 0x0, 0x0, 0x0, 0x0, 0x0⟩,
   ⟨0x05C, 4, 1, 0x0, 0x0, 0x0, 0x0, 0x0, 0x0⟩,
   ⟨0x060, 4, 1, 0x0, 0x0, 0x0, 0x0, 0x0, 0x0⟩,
   ⟨0x100, 4, 1, 0x0, 0x0, 0xFFFFFF80, 0x0, 0x0, 0x0⟩,
   ⟨0x104, 4, 1, 0x0, 0x0, 0x3FF, 0x0, 0x0, 0x0⟩,
   ⟨0x108, 4, 1, 0x0, 0x0, 0xFFF, 0x0, 0x0, 0x0⟩,
   ⟨0x10C, 4, 1, 0x0, 0x0, 0x0, 0x0, 0x0, 0x0⟩,
   ⟨0x110, 4, 1, 0x0, 0x0, 0x0, 0x0, 0x0, 0x0⟩,
   ⟨0x114, 4, 1, 0x0, 0x0, 0x0, 0x0, 0x0, 0x0⟩,
   ⟨0x118, 4, 1, 0x0, 0x0, 0x0, 0x0, 0x0, 0x0⟩,
   ⟨0x11C, 4, 1, 0x0, 0x0, 0x0, 0x0, 0x0, 0x0⟩,
   ⟨0x120, 8, 1, 0x0, 0x0, 0x0, 0xFFFF, 0x0, 0xBB8⟩,
   ⟨0x124, 8, 1, 0x0, 0x0, 0x0, 0xFFFFFF, 0x0, 0x186A0⟩,
   ⟨0x128, 8, 1, 0x0, 0x0, 0x0, 0x0, 0x0, 0x1F4⟩] ++
  [⟨0x12C, 8, 2, 0x0, 0x0, 0x0, 0x0, 0x0, 0xF4240⟩,
   ⟨0x130, 8, 1, 0x0, 0x0, 0x0, 0x0, 0x0, 0x230⟩,
   ⟨0x138, 8, 1, 0x0, 0x0, 0x0, 0x0, 0x0, 0x320⟩,
   ⟨0x13C, 8, 1, 0x0, 0x0, 0x0, 0x0, 0x0, 0x30D40⟩,
   ⟨0x140, 8, 1, 0x0, 0x0, 0x0, 0x0, 0x0, 0x4B0⟩,
   ⟨0x144, 8, 1, 0x0, 0x0, 0x0, 0x0, 0x0, 0x17700⟩,
   ⟨0x150, 4, 1, 0x0, 0x0, 0xFFFFFF, 0x0, 0x0, 0x0⟩,
   ⟨0x154, 4, 1, 0x0, 0x0, 0x0, 0x0, 0x0, 0x0⟩,
   ⟨0x160, 4, 8, 0x0, 0x0, 0x0, 0x0, 0x0, 0x0⟩]

/-- Field masks and reset values of the gauge page (R386). -/
def RegMap.gauge : List RegDef :=
  [⟨0x040, 4, 1, 0x0, 0x42, 0x0, 0x0, 0x0, 0x0⟩,
   ⟨0x044, 4, 1, 0x0, 0x0, 0x0, 0x0, 0x0, 0x2EE02EE⟩,
   ⟨0x048, 4, 1, 0x0, 0x0, 0x0, 0x0, 0x0, 0x0⟩,
   ⟨0x04C, 4, 1, 0x0, 0x0, 0x0, 0x0, 0x0, 0x100⟩,
   ⟨0x050, 4, 1, 0x0, 0x0, 0x0, 0x0, 0x0, 0x0⟩,
   ⟨0x054, 4, 1, 0x0, 0x0, 0x0, 0x0, 0x0, 0x0⟩,
   ⟨0x058, 4, 1, 0x0, 0x0, 0x0, 0x0, 0x0, 0x0⟩,
   ⟨0x05C, 4, 1, 0x0, 0x0, 0x0, 0x0, 0x0, 0xB540960⟩,
   ⟨0x060, 4, 1, 0x0, 0x0, 0x0, 0x0, 0x0, 0x0⟩,
   ⟨0x064, 4, 1, 0x0, 0x0, 0xFFF, 0x0, 0x0, 0x0⟩,
   ⟨0x068, 4, 1, 0x0, 0x0, 0x3FF, 0x0, 0x0, 0x2EE⟩,
   ⟨0x06C, 4, 1, 0x0, 0x0, 0xFFF, 0x0, 0x0, 0x960⟩,
   ⟨0x070, 4, 1, 0x0, 0x0, 0x1, 0x0, 0x0, 0x0⟩,
   ⟨0x074, 4, 1, 0x3FF03FF, 0x0, 0x0, 0x0, 0x0, 0x2EE02EE⟩,
   ⟨0x078, 4, 1, 0x1FF, 0x0, 0x0, 0x0, 0x0, 0x100⟩,
   ⟨0x07C, 4, 1, 0x1FF, 0x0, 0x0, 0x0, 0x0, 0x40⟩,
   ⟨0x080, 4, 1, 0xFFFFFF, 0x0, 0x0, 0x0, 0x0, 0x2710⟩,
   ⟨0x084, 4, 1, 0x0, 0x0, 0x0, 0x0, 0x0, 0x0⟩,
   ⟨0x088, 4, 1, 0x0, 0x0, 0x0, 0x0, 0x0, 0x0⟩,
   ⟨0x08C, 4, 1, 0x0, 0x0, 0x0, 0x0, 0x0, 0x0⟩] ++
  [⟨0x090, 4, 1, 0x7FF, 0x0, 0x0, 0x0, 0x0, 0x7FC⟩,
   ⟨0x094, 4, 1, 0xFFFFF000, 0x0, 0x0, 0x0, 0x0, 0x0⟩,
   ⟨0x098, 4, 1, 0x3FF, 0x0, 0x0, 0x0, 0x0, 0x0⟩,
   ⟨0x09C, 4, 1, 0x0, 0x0, 0x0, 0x0, 0x0, 0x0⟩,
   ⟨0x0A0, 4, 1, 0x0, 0x0, 0x0, 0x0, 0x0, 0x0⟩]

/-- Field masks and reset values of the spring page (R123). -/
def RegMap.spring : List RegDef :=
  [⟨0x040, 4, 1, 0x0, 0x0, 0xFFFFFFFF, 0x0, 0x0, 0x0⟩,
   ⟨0x044, 4, 1, 0x0, 0x0, 0xFFFFFFFF, 0x0, 0x0, 0x0⟩,
   ⟨0x048, 4, 1, 0x0, 0x0, 0xFFFFFFFF, 0x0, 0x0, 0x0⟩,
   ⟨0x04C, 4, 1, 0x0, 0x0, 0xFFFFFFFF, 0x0, 0x0, 0x0⟩,
   ⟨0x050, 4, 1, 0x0, 0x0, 0xFFFFFFFF, 0x0, 0x0, 0x0⟩,
   ⟨0x054, 4, 1, 0x0, 0x0, 0xFFFFFFFF, 0x0, 0x0, 0x0⟩,
   ⟨0x058, 4, 1, 0x0, 0x0, 0xFFFFFFFF, 0x0, 0x0, 0x0⟩,
   ⟨0x05C, 4, 1, 0x0, 0x0, 0xFFFFFFFF, 0x0, 0x0, 0x0⟩,
   ⟨0x060, 4, 1, 0x0, 0x0, 0xFFFFFFFF, 0x0, 0x0, 0x0⟩,
   ⟨0x064, 4, 1, 0xFFFFFFFF, 0x0, 0x0, 0x0, 0x0, 0x0⟩,
   ⟨0x068, 4, 1, 0xFFFFFFFF, 0x0, 0x0, 0x0, 0x0, 0x0⟩,
   ⟨0x06C, 4, 1, 0xFFFFFFFF, 0x0, 0x0, 0x0, 0x0, 0x0⟩,
   ⟨0x070, 4, 1, 0xFFFFFFFF, 0x0, 0x0, 0x0, 0x0, 0x0⟩,
   ⟨0x074, 4, 1, 0x2, 0x0, 0x0, 0x0, 0x1, 0x0⟩,
   ⟨0x078, 4, 1, 0x0, 0x0, 0x0, 0x0, 0x0, 0x0⟩,
   ⟨0x07C, 4, 1, 0x0, 0x0, 0x0, 0x0, 0x0, 0x0⟩,
   ⟨0x080, 4, 1, 0x0, 0x0, 0x0, 0x0, 0x0, 0x0⟩,
   ⟨0x084, 4, 1, 0x0, 0x0, 0x0, 0x0, 0x0, 0x0⟩]

/-- Field masks and reset values of the host page (R449). -/
def RegMap.host : List RegDef :=
  [⟨0x040, 4, 1, 0x0, 0x0, 0x0, 0x0, 0x0, 0x0⟩,
   ⟨0x044, 4, 1, 0x3F, 0x0, 0x0, 0x0, 0x0, 0x0⟩,
   ⟨0x048, 4, 1, 0x0, 0x0, 0x0, 0x0, 0x0, 0x0⟩]

/-- Field masks and reset values of the mgmt page (R480). -/
def RegMap.mgmt : List RegDef :=
  [⟨0x040, 4, 1, 0x0, 0x0, 0x0, 0x0, 0x0, 0x0⟩,
   ⟨0x044, 4, 1, 0x1FF, 0x0, 0x0, 0x0, 0x0, 0x0⟩,
   ⟨0x048, 4, 1, 0x0, 0x0, 0x0, 0x0, 0x0, 0x0⟩]

/-- Field masks and reset values of the barn page (R196, R237, R362). -/
def RegMap.barn : List RegDef :=
  [⟨0x040, 4, 1, 0x0, 0x0, 0x0, 0x0, 0x0, 0x0⟩,
   ⟨0x044, 4, 1, 0x0, 0x0, 0x0, 0x0, 0x0, 0x0⟩,
   ⟨0x048, 4, 1, 0x2, 0x0, 0x0, 0x0, 0x1, 0x0⟩,
   ⟨0x04C, 4, 1, 0x0, 0x0, 0x1, 0x0, 0x0, 0x0⟩,
   ⟨0x050, 4, 1, 0x0, 0x0, 0x0, 0x0, 0x0, 0x0⟩,
   ⟨0x054, 4, 1, 0x0, 0x0, 0x0, 0x0, 0x0, 0x0⟩,
   ⟨0x058, 4, 1, 0x0, 0x0, 0x1FFFF80, 0x0, 0x0, 0x0⟩,
   ⟨0x060, 4, 6, 0x0, 0x0, 0x0, 0x0, 0x0, 0x0⟩,
   ⟨0x080, 4, 16, 0xFFFF, 0x0, 0x0, 0x0, 0x0, 0x0⟩,
   ⟨0x0C0, 4, 1, 0x0, 0x0, 0x0, 0x0, 0x0, 0x0⟩,
   ⟨0x0C4, 4, 1, 0x0, 0x0, 0x0, 0x0, 0x1, 0x0⟩,
   ⟨0x0C8, 4, 1, 0x0, 0x0, 0x0, 0x0, 0x0, 0x0⟩,
   ⟨0x0CC, 4, 1, 0x0, 0x0, 0x0, 0x0, 0x0, 0x0⟩,
   ⟨0x0D0, 4, 1, 0x1F, 0x0, 0x0, 0x0, 0x80000000, 0x0⟩,
   ⟨0x0D4, 4, 1, 0xFFFFFFFF, 0x0, 0x0, 0x0, 0x0, 0x0⟩]

/-- Field masks and reset values of the engine page (R42, R91, R148, R197). -/
def RegMap.engine : List RegDef :=
  [⟨0x040, 4, 1, 0x0, 0x0, 0x0, 0x0, 0x0, 0x0⟩,
   ⟨0x044, 4, 1, 0x0, 0x0, 0x0, 0x0, 0x0, 0x0⟩,
   ⟨0x048, 4, 1, 0x0, 0x0, 0x0, 0x0, 0x0, 0x0⟩,
   ⟨0x04C, 4, 1, 0x0, 0x0, 0x0, 0x0, 0x0, 0x0⟩,
   ⟨0x050, 4, 1, 0x1, 0x0, 0x0, 0x0, 0x0, 0x1⟩,
   ⟨0x054, 4, 1, 0x0, 0x80000000, 0x0, 0x0, 0x0, 0x0⟩,
   ⟨0x058, 4, 1, 0x0, 0x0, 0x0, 0x0, 0x0, 0x0⟩,
   ⟨0x05C, 4, 1, 0x0, 0x0, 0x0, 0x0, 0x0, 0x0⟩,
   ⟨0x060, 4, 1, 0x0, 0x0, 0x0, 0x0, 0x0, 0x0⟩,
   ⟨0x064, 4, 1, 0x0, 0x0, 0x0, 0x0, 0x0, 0x0⟩,
   ⟨0x068, 4, 1, 0x0, 0x0, 0x0, 0x0, 0x0, 0x0⟩,
   ⟨0x06C, 4, 1, 0xFFFFFF, 0x0, 0x0, 0x0, 0x0, 0xEA60⟩,
   ⟨0x070, 4, 1, 0x0, 0x0, 0x0, 0x0, 0x0, 0x0⟩,
   ⟨0x074, 4, 1, 0x0, 0x0, 0x0, 0x0, 0x0, 0x0⟩,
   ⟨0x078, 4, 1, 0x0, 0x0, 0x0, 0x0, 0x0, 0x0⟩,
   ⟨0x07C, 4, 1, 0x0, 0x0, 0x0, 0x0, 0x0, 0x0⟩,
   ⟨0x080, 4, 1, 0x0, 0x0, 0x0, 0x0, 0x0, 0x0⟩,
   ⟨0x084, 4, 1, 0x0, 0x0, 0x0, 0x0, 0x0, 0x0⟩,
   ⟨0x088, 4, 1, 0x0, 0x0, 0x0, 0x0, 0x0, 0x0⟩,
   ⟨0x08C, 4, 1, 0x0, 0x0, 0x0, 0x0, 0x0, 0x0⟩] ++
  [⟨0x090, 4, 1, 0x0, 0x0, 0x0, 0x0, 0x0, 0x0⟩,
   ⟨0x094, 4, 1, 0x0, 0x0, 0x0, 0x0, 0x0, 0x0⟩,
   ⟨0x098, 4, 1, 0x0, 0x0, 0x0, 0x0, 0x0, 0x0⟩,
   ⟨0x0A0, 8, 8, 0x0, 0x0, 0xFFFFFFFF, 0x0, 0x0, 0x0⟩,
   ⟨0x0A4, 8, 8, 0x0, 0x0, 0x3FF, 0x0, 0x0, 0x0⟩,
   ⟨0x0E0, 4, 1, 0x0, 0x0, 0xFFFFF, 0x0, 0x0, 0x0⟩,
   ⟨0x0E4, 4, 1, 0x0, 0x0, 0xFFFFF, 0x0, 0x0, 0x0⟩,
   ⟨0x0E8, 4, 1, 0x0, 0x0, 0xFFFFFF, 0x0, 0x0, 0x0⟩,
   ⟨0x0EC, 4, 1, 0x0, 0x0, 0x3F, 0x0, 0x0, 0x0⟩,
   ⟨0x0F0, 4, 1, 0x0, 0x0, 0x0, 0x0, 0x0, 0x0⟩]

/-- Field masks and reset values of the flume page (R296). -/
def RegMap.flume : List RegDef :=
  [⟨0x040, 4, 1, 0x0, 0x0, 0x0, 0x0, 0x0, 0x0⟩,
   ⟨0x044, 4, 1, 0xFFFFFF00, 0x0, 0x0, 0x0, 0x0, 0x0⟩,
   ⟨0x048, 4, 1, 0x3FF, 0x0, 0x0, 0x0, 0x0, 0x0⟩,
   ⟨0x04C, 4, 1, 0x0, 0x0, 0x0, 0x0, 0x1, 0x0⟩,
   ⟨0x050, 4, 1, 0x0, 0x0, 0x0, 0x0, 0x0, 0x0⟩,
   ⟨0x054, 4, 1, 0x0, 0x0, 0x0, 0x0, 0x0, 0x0⟩,
   ⟨0x058, 4, 1, 0x0, 0x0, 0x0, 0x0, 0x0, 0x0⟩,
   ⟨0x05C, 4, 1, 0x0, 0x0, 0x0, 0x0, 0x0, 0x0⟩,
   ⟨0x060, 4, 1, 0x0, 0x0, 0x0, 0x0, 0x0, 0x0⟩,
   ⟨0x064, 4, 1, 0x0, 0x0, 0x0, 0x0, 0x0, 0x0⟩,
   ⟨0x068, 4, 1, 0x0, 0x0, 0x0, 0x0, 0x0, 0x0⟩,
   ⟨0x06C, 4, 1, 0x0, 0x0, 0x0, 0x0, 0x0, 0x0⟩,
   ⟨0x070, 4, 1, 0x0, 0x0, 0x0, 0x0, 0x0, 0x0⟩,
   ⟨0x074, 4, 1, 0x0, 0x0, 0x0, 0x0, 0x0, 0x0⟩,
   ⟨0x078, 4, 1, 0x0, 0x0, 0x0, 0x0, 0x0, 0x0⟩,
   ⟨0x07C, 4, 1, 0xFFFF, 0x0, 0x0, 0x0, 0x0, 0x0⟩,
   ⟨0x080, 4, 1, 0x0, 0x0, 0xFFFFFF, 0x0, 0x0, 0x0⟩,
   ⟨0x084, 4, 1, 0x0, 0x0, 0xFFFFFF, 0x0, 0x0, 0x10000⟩,
   ⟨0x088, 4, 1, 0x0, 0x0, 0x0, 0x0, 0x0, 0x10000⟩,
   ⟨0x08C, 4, 1, 0x0, 0x0, 0x0, 0x0, 0x0, 0x0⟩] ++
  [⟨0x090, 4, 1, 0x0, 0x0, 0x0, 0x0, 0x0, 0x0⟩,
   ⟨0x094, 4, 1, 0x0, 0x0, 0x0, 0x0, 0x0, 0x0⟩,
   ⟨0x098, 4, 1, 0x0, 0x0, 0x0, 0x0, 0x0, 0x0⟩,
   ⟨0x09C, 4, 1, 0x0, 0x0, 0x0, 0x0, 0x0, 0x0⟩,
   ⟨0x0A0, 4, 1, 0x0, 0x0, 0x0, 0x0, 0x7, 0x0⟩,
   ⟨0x0A4, 4, 1, 0x0, 0x0, 0x0, 0x0, 0x0, 0x0⟩,
   ⟨0x0A8, 4, 1, 0x0, 0x0, 0x0, 0x0, 0x0, 0x0⟩]

/-- Field masks and reset values of the ctl page (R269). -/
def RegMap.ctl : List RegDef :=
  [⟨0x040, 4, 1, 0x0, 0x0, 0x0, 0x0, 0x0, 0x0⟩,
   ⟨0x044, 4, 1, 0x0, 0x0, 0x0, 0x0, 0x0, 0x0⟩,
   ⟨0x048, 4, 1, 0x0, 0x0, 0x0, 0x0, 0x0, 0x0⟩,
   ⟨0x04C, 4, 1, 0x0, 0x0, 0x0, 0x0, 0x0, 0x0⟩,
   ⟨0x050, 4, 1, 0x0, 0x0, 0x0, 0x0, 0x0, 0x0⟩,
   ⟨0x054, 4, 1, 0x0, 0x0, 0x0, 0x0, 0x0, 0x0⟩,
   ⟨0x058, 4, 1, 0x0, 0x0, 0x0, 0x0, 0x0, 0x0⟩,
   ⟨0x05C, 4, 1, 0x7FFFFF, 0x0, 0x0, 0x0, 0x0, 0x320D40⟩]

/-- Field masks and reset values of the mad page (R269). -/
def RegMap.mad : List RegDef :=
  [⟨0x040, 4, 1, 0x0, 0x0, 0x0, 0x0, 0x0, 0x0⟩,
   ⟨0x044, 4, 1, 0x0, 0x0, 0x0, 0x0, 0x0, 0x0⟩,
   ⟨0x048, 4, 1, 0x0, 0x0, 0x0, 0x0, 0x0, 0x0⟩]

/-- Field masks and reset values of the mkv page (R269). -/
def RegMap.mkv : List RegDef :=
  [⟨0x040, 4, 1, 0x0, 0x0, 0xFFFFFFC0, 0x0, 0x0, 0x0⟩,
   ⟨0x044, 4, 1, 0x0, 0x0, 0x3FF, 0x0, 0x0, 0x0⟩,
   ⟨0x048, 4, 1, 0x0, 0x0, 0x3FFF, 0x0, 0x0, 0x0⟩,
   ⟨0x04C, 4, 1, 0x0, 0x0, 0x3FFFF, 0x0, 0x0, 0x0⟩,
   ⟨0x050, 4, 1, 0x0, 0x0, 0x3FFFF, 0x0, 0x0, 0x0⟩,
   ⟨0x054, 4, 1, 0x0, 0xC, 0x0, 0x0, 0x0, 0x0⟩,
   ⟨0x058, 4, 1, 0x0, 0x0, 0x0, 0x0, 0x1, 0x0⟩,
   ⟨0x05C, 4, 1, 0x0, 0x0, 0x0, 0x0, 0x0, 0x0⟩,
   ⟨0x060, 4, 1, 0x0, 0x0, 0x0, 0x0, 0x3, 0x0⟩,
   ⟨0x064, 4, 1, 0x0, 0x0, 0x0, 0x0, 0x0, 0x0⟩,
   ⟨0x068, 4, 1, 0x0, 0x0, 0x0, 0x0, 0x0, 0x0⟩,
   ⟨0x070, 4, 1, 0x0, 0x0, 0xFFFFFFFF, 0x0, 0x0, 0x0⟩,
   ⟨0x074, 4, 1, 0x0, 0x0, 0xFFFFFFFF, 0x0, 0x0, 0x0⟩,
   ⟨0x078, 4, 1, 0x0, 0x0, 0xFFFFFFFF, 0x0, 0x0, 0x0⟩,
   ⟨0x07C, 4, 1, 0x0, 0x0, 0xFFFFFFFF, 0x0, 0x0, 0x0⟩,
   ⟨0x080, 4, 1, 0x0, 0x0, 0xFFFFFFFF, 0x0, 0x0, 0x0⟩,
   ⟨0x084, 4, 1, 0x0, 0x0, 0xFFFFFFFF, 0x0, 0x0, 0x0⟩,
   ⟨0x088, 4, 1, 0x0, 0x0, 0xFFFFFFFF, 0x0, 0x0, 0x0⟩,
   ⟨0x08C, 4, 1, 0x0, 0x0, 0xFFFFFFFF, 0x0, 0x0, 0x0⟩]

/-- Field masks and reset values of the rep page (R269). -/
def RegMap.rep : List RegDef :=
  [⟨0x040, 4, 1, 0x0, 0x0, 0x0, 0x0, 0x0, 0x800040⟩,
   ⟨0x044, 4, 1, 0xFF, 0x0, 0x0, 0x0, 0x0, 0x10⟩,
   ⟨0x048, 4, 1, 0xFFFFFF, 0x0, 0x0, 0x0, 0x0, 0xE10⟩,
   ⟨0x04C, 4, 1, 0x0, 0x0, 0x0, 0x0, 0x0, 0x0⟩,
   ⟨0x050, 4, 1, 0xFFFFFFC0, 0x0, 0x0, 0x0, 0x0, 0x0⟩,
   ⟨0x054, 4, 1, 0x3FF, 0x0, 0x0, 0x0, 0x0, 0x0⟩,
   ⟨0x058, 4, 1, 0x0, 0x0, 0x0, 0x0, 0x1, 0x0⟩]

/-- Field masks and reset values of the port page (R340). -/
def RegMap.port : List RegDef :=
  [⟨0x040, 4, 1, 0x0, 0x0, 0x0, 0x0, 0x0, 0x0⟩,
   ⟨0x044, 4, 1, 0xFF, 0x0, 0x0, 0x0, 0x0, 0x20⟩,
   ⟨0x048, 4, 1, 0xFFFFFF, 0x0, 0x0, 0x0, 0x0, 0x3E8⟩,
   ⟨0x04C, 4, 1, 0x0, 0x0, 0x0, 0x0, 0x0, 0x0⟩,
   ⟨0x050, 4, 1, 0x0, 0x0, 0x0, 0x0, 0x0, 0x0⟩,
   ⟨0x054, 4, 1, 0x0, 0x0, 0x0, 0x0, 0x0, 0x0⟩,
   ⟨0x058, 4, 1, 0xFFFFFF, 0x0, 0x0, 0x0, 0x0, 0x1F4⟩,
   ⟨0x05C, 4, 1, 0xFFFFFF, 0x0, 0x0, 0x0, 0x0, 0x3E8⟩,
   ⟨0x060, 4, 1, 0x0, 0x0, 0x0, 0x0, 0x0, 0x0⟩,
   ⟨0x064, 4, 1, 0xFFFFFF, 0x0, 0x0, 0x0, 0x0, 0xEA60⟩,
   ⟨0x068, 4, 1, 0x0, 0x0, 0x0, 0x0, 0x0, 0x0⟩,
   ⟨0x06C, 4, 1, 0x0, 0x0, 0x0, 0x0, 0x0, 0x0⟩,
   ⟨0x070, 4, 1, 0xFFFFFF, 0x0, 0x0, 0x0, 0x0, 0x20408⟩,
   ⟨0x074, 4, 1, 0x0, 0x0, 0xFFFF, 0x0, 0x0, 0x0⟩,
   ⟨0x078, 4, 1, 0x0, 0x0, 0x0, 0x0, 0x0, 0x0⟩]

/-- Field masks and reset values of the fp page (R435). -/
def RegMap.fp : List RegDef :=
  [⟨0x040, 4, 1, 0x0, 0x0, 0x0, 0x0, 0x0, 0x0⟩,
   ⟨0x044, 4, 1, 0x0, 0x0, 0x0, 0x0, 0x1, 0x0⟩,
   ⟨0x048, 4, 1, 0xFFFF, 0x0, 0x0, 0x0, 0x0, 0x32⟩,
   ⟨0x04C, 4, 1, 0x0, 0x0, 0x0, 0x0, 0x1, 0x0⟩,
   ⟨0x050, 4, 1, 0x0, 0x0, 0x0, 0x0, 0x0, 0x0⟩,
   ⟨0x054, 4, 1, 0xFFFFFF, 0x0, 0x0, 0x0, 0x0, 0xEA60⟩,
   ⟨0x058, 4, 1, 0x0, 0x0, 0x0, 0x0, 0x0, 0x0⟩,
   ⟨0x05C, 4, 1, 0x0, 0x0, 0x0, 0x0, 0x0, 0x0⟩,
   ⟨0x060, 4, 1, 0x0, 0x0, 0x0, 0x0, 0x0, 0x0⟩,
   ⟨0x064, 4, 1, 0x3, 0x0, 0x0, 0x0, 0x0, 0x1⟩,
   ⟨0x068, 4, 1, 0x7, 0x0, 0x0, 0x0, 0x0, 0x0⟩,
   ⟨0x06C, 4, 1, 0x0, 0x0, 0x0, 0x0, 0x0, 0x0⟩,
   ⟨0x080, 4, 8, 0x0, 0x0, 0x0, 0x0, 0x0, 0x0⟩,
   ⟨0x0A0, 4, 1, 0xFFFFFE00, 0x0, 0x0, 0x0, 0x0, 0x0⟩,
   ⟨0x0A4, 4, 1, 0x3FF, 0x0, 0x0, 0x0, 0x0, 0x0⟩,
   ⟨0x0A8, 4, 1, 0x0, 0x0, 0x0, 0x0, 0x1, 0x0⟩,
   ⟨0x0AC, 4, 1, 0x0, 0x0, 0x0, 0x0, 0x0, 0x0⟩,
   ⟨0x0B0, 4, 1, 0x0, 0x0, 0x0, 0x0, 0x0, 0x0⟩,
   ⟨0x0B4, 4, 1, 0x0, 0x0, 0x0, 0x0, 0x1, 0x0⟩]

/-- The page that holds window offset `a` (R462); `a` below 64 MiB. -/
def pageOf (a : Nat) : Page :=
  if a < 0x1000 then .global
  else if a < 0x2000 then .gleaner
  else if a < 0x3000 then .tally
  else if a < 0x4000 then .gauge
  else if a < 0x5000 then .spring
  else if a < 0x6000 then .host
  else if a < 0x7000 then .mgmt
  else if a < 0x10000 then .unassigned
  else if a < 0x18000 then .barn ((a - 0x10000) / 0x1000)
  else if a < 0x40000 then .unassigned
  else if a < 0x80000 then .engine ((a - 0x40000) / 0x1000)
  else if a < 0xA0000 then .flume ((a - 0x80000) / 0x1000)
  else if a < 0xC0000 then .unassigned
  else if a < 0x100000 then
    let s := (a - 0xC0000) / 0x4000
    let q := (a - 0xC0000) % 0x4000 / 0x1000
    if q = 0 then .ctl s else if q = 1 then .mad s else if q = 2 then .mkv s else .rep s
  else if a < 0x118000 then .port ((a - 0x100000) / 0x1000)
  else if a < 0x140000 then .unassigned
  else if a < 0x180000 then
    let k := (a - 0x140000) / 0x10000
    let o := (a - 0x140000) % 0x10000
    if o < 0x1000 then .fp k else if 0x8000 ≤ o then .fpLog k else .fp k
  else if a < 0x200000 then .unassigned
  else if a < 0x400000 then .granary ((a - 0x200000) / 0x40000)
  else .unassigned

/-- Offset of `a` within its page; a firmware processor's 16 pages count as one (R462). -/
def pageOffset (a : Nat) : Nat :=
  if 0x140000 ≤ a ∧ a < 0x180000 then (a - 0x140000) % 0x10000 else a % 0x1000

/-- Window offset of the first byte of a page. -/
def Page.base : Page → Nat
  | .global => 0 | .gleaner => 0x1000 | .tally => 0x2000 | .gauge => 0x3000 | .spring => 0x4000
  | .host => 0x5000 | .mgmt => 0x6000
  | .barn b => 0x10000 + 0x1000 * b | .engine e => 0x40000 + 0x1000 * e | .flume f => 0x80000 + 0x1000 * f
  | .ctl s => 0xC0000 + 0x4000 * s | .mad s => 0xC1000 + 0x4000 * s
  | .mkv s => 0xC2000 + 0x4000 * s | .rep s => 0xC3000 + 0x4000 * s
  | .port p => 0x100000 + 0x1000 * p | .fp k => 0x140000 + 0x10000 * k | .fpLog k => 0x140000 + 0x10000 * k
  | .granary b => 0x200000 + 0x40000 * b | .unassigned => 0x7000

/-- TYPE code of a page's ID register (R465); 0 where a page has no header. -/
def Page.typeCode : Page → Nat
  | .global => 0x01 | .gleaner => 0x02 | .tally => 0x03 | .gauge => 0x04 | .spring => 0x05 | .host => 0x06
  | .mgmt => 0x07 | .barn _ => 0x10 | .engine _ => 0x11 | .flume _ => 0x12 | .ctl _ => 0x13 | .mad _ => 0x14
  | .mkv _ => 0x15 | .rep _ => 0x16 | .port _ => 0x17 | .fp _ => 0x18 | .fpLog _ => 0x18
  | .granary _ => 0 | .unassigned => 0

/-- INSTANCE of a page's ID register (R464). -/
def Page.instanceNo : Page → Nat
  | .barn b => b | .engine e => e | .flume f => f | .ctl s => s | .mad s => s | .mkv s => s | .rep s => s
  | .port p => p | .fp k => k | .fpLog k => k | .granary b => b | _ => 0

/-- The master pages: those that hold FREEZE (R403, R464). -/
def Page.isMaster : Page → Bool
  | .host => true | .mgmt => true | .fp _ => true | .barn _ => true | .flume _ => true | .mkv _ => true | _ => false

/-- The ERR_INJECT bits that select an injection (R406); every other bit is reserved. -/
def Page.injectMask : Page → BitVec 32
  | .engine _ => 0x7 | .barn _ => 0x1 | .ctl _ => 0x3F | .spring => 0x1 | .port _ => 0xF | .gauge => 0x3
  | .global => 0x3F | .flume _ => 0x1 | .tally => 0x1 | .fp _ => 0x3 | _ => 0

/-- The block-specific table of a page. -/
def Page.table : Page → List RegDef
  | .global => RegMap.global | .gleaner => RegMap.gleaner | .tally => RegMap.tally | .gauge => RegMap.gauge
  | .spring => RegMap.spring | .host => RegMap.host | .mgmt => RegMap.mgmt | .barn _ => RegMap.barn
  | .engine _ => RegMap.engine | .flume _ => RegMap.flume | .ctl _ => RegMap.ctl | .mad _ => RegMap.mad
  | .mkv _ => RegMap.mkv | .rep _ => RegMap.rep | .port _ => RegMap.port
  | .fp k => if k = 0 then RegMap.fp else RegMap.fp.filter (fun d => d.off < 0x80)
  | .fpLog _ => [] | .granary _ => [] | .unassigned => []

/-- Does a row name the page offset `o`? -/
def RegDef.names (d : RegDef) (o : Nat) : Bool :=
  decide (d.off ≤ o) && decide (o < d.off + d.stride * d.count) && decide ((o - d.off) % d.stride = 0)

/-- The table row of a window offset: a header register or one of the page's own (R463: none where no table names the
offset). FREEZE stands only in master pages (R464). -/
def regDef? (a : Nat) : Option RegDef :=
  let pg := pageOf a
  let o := pageOffset a
  match pg with
  | .unassigned | .granary _ | .fpLog _ => none
  | _ =>
    match RegMap.header.find? (fun d => d.names o) with
    | some d => if o = 0x020 ∧ ¬ pg.isMaster then none else some d
    | none => pg.table.find? (fun d => d.names o)

/-- The value register `a` holds after reset, from its table row; 0 where no table names it (R463). -/
def resetVal (a : Nat) : BitVec 32 :=
  match regDef? a with
  | some d => d.reset
  | none => 0

end Sys2Proof
end

