-- ==== Sys2Proof/Machine/Maps.lean ====
section
/-! DEFINITION. Sparse maps in one canonical form (keys strictly rising, no entry equal to the default `d k`), and byte
strings in little-endian order (R11). -/

namespace Sys2Proof

variable {w : Nat}

/-- Read key `k`; an unlisted key reads as `d k`. -/
def CMap.get (d : Nat → BitVec w) (m : CMap w) (k : Nat) : BitVec w :=
  match m with
  | [] => d k
  | (j, v) :: rest => if j = k then v else if k < j then d k else CMap.get d rest k

/-- Put the pair `(k, v)` in its place, unless `v` is what an unlisted `k` reads as. -/
def CMap.put (d : Nat → BitVec w) (k : Nat) (v : BitVec w) (rest : CMap w) : CMap w :=
  if v = d k then rest else (k, v) :: rest

/-- Write key `k`, keeping the canonical form. -/
def CMap.set (d : Nat → BitVec w) (m : CMap w) (k : Nat) (v : BitVec w) : CMap w :=
  match m with
  | [] => CMap.put d k v []
  | (j, u) :: rest =>
    if k < j then CMap.put d k v ((j, u) :: rest)
    else if k = j then CMap.put d k v rest
    else (j, u) :: CMap.set d rest k v

/-- The canonical form: every key above `lo`, keys strictly rising, no entry equal to its default. -/
def CMap.wfFrom (d : Nat → BitVec w) : Nat → CMap w → Bool
  | _, [] => true
  | lo, (k, v) :: rest => decide (lo ≤ k) && decide (v ≠ d k) && CMap.wfFrom d (k + 1) rest

/-- The canonical form of a whole map. -/
def CMap.wf (d : Nat → BitVec w) (m : CMap w) : Bool := CMap.wfFrom d 0 m

/-- What an unlisted key reads as in every memory of the model: zero (assumption 2). -/
abbrev zeroDefault (w : Nat) : Nat → BitVec w := fun _ => 0

/-- Read of a memory whose unlisted keys read zero. -/
abbrev CMap.rd (m : CMap w) (k : Nat) : BitVec w := CMap.get (zeroDefault w) m k

/-- Write of a memory whose unlisted keys read zero. -/
abbrev CMap.wr (m : CMap w) (k : Nat) (v : BitVec w) : CMap w := CMap.set (zeroDefault w) m k v

/-- Canonical form of a memory whose unlisted keys read zero. -/
abbrev Memory.wf (m : CMap w) : Bool := CMap.wf (zeroDefault w) m

/-- `n` bytes from address `a`, lowest first. -/
def CMap.rdBytes (m : CMap 8) (a : Nat) : Nat → List Byte
  | 0 => []
  | n + 1 => m.rd a :: CMap.rdBytes m (a + 1) n

/-- Write a byte string at `a`, lowest address first. -/
def CMap.wrBytes (m : CMap 8) (a : Nat) : List Byte → CMap 8
  | [] => m
  | b :: bs => CMap.wrBytes (m.wr a b) (a + 1) bs

/-- Write the bytes whose enable is on; a byte without an enable counts as on. -/
def CMap.wrMasked (m : CMap 8) (a : Nat) : List Byte → List Bool → CMap 8
  | [], _ => m
  | b :: bs, [] => CMap.wrMasked (m.wr a b) (a + 1) bs []
  | b :: bs, en :: ens => CMap.wrMasked (if en then m.wr a b else m) (a + 1) bs ens

/-- The list of the pairs of `l` whose value is not zero, keyed from `k` upward. -/
def CMap.ofListFrom (k : Nat) : List (BitVec w) → CMap w
  | [] => []
  | v :: vs => if v = 0 then CMap.ofListFrom (k + 1) vs else (k, v) :: CMap.ofListFrom (k + 1) vs

/-- A little-endian number from bytes. -/
def leNat : List Byte → Nat
  | [] => 0
  | b :: bs => b.toNat + 256 * leNat bs

/-- `n` little-endian bytes of a number. -/
def leBytes : Nat → Nat → List Byte
  | 0, _ => []
  | n + 1, v => BitVec.ofNat 8 v :: leBytes n (v / 256)

/-- Byte `i` of a string; 0 beyond its end. -/
def byteAt (bs : List Byte) (i : Nat) : Byte := bs.getD i 0

/-- The little-endian 32-bit word at byte offset `i`. -/
def wordAt (bs : List Byte) (i : Nat) : Word := BitVec.ofNat 32 (leNat ((bs.drop i).take 4))

/-- Bits [hi:lo] of a number. -/
def bits (v hi lo : Nat) : Nat := v / 2 ^ lo % 2 ^ (hi - lo + 1)

/-- Bit `i` of a number. -/
def bit (v i : Nat) : Bool := decide (v / 2 ^ i % 2 = 1)

/-- Two's complement value of the low `n` bits of `v`. -/
def sext (n v : Nat) : Int :=
  let u := v % 2 ^ n
  if u < 2 ^ (n - 1) then (u : Int) else (u : Int) - (2 ^ n : Nat)

/-- 1 for true, 0 for false. -/
def b2n (b : Bool) : Nat := if b then 1 else 0

/-- Replace bits [hi:lo] of a register by the low bits of `v`. -/
def Word.setBits (x : Word) (hi lo v : Nat) : Word :=
  let m := (2 ^ (hi - lo + 1) - 1) * 2 ^ lo
  (x &&& ~~~ (BitVec.ofNat 32 m)) ||| BitVec.ofNat 32 (v % 2 ^ (hi - lo + 1) * 2 ^ lo)

/-- Bits [hi:lo] of a register. -/
def Word.field (x : Word) (hi lo : Nat) : Nat := bits x.toNat hi lo

/-- The 1-based saturating increment of a counter of `n` bits. -/
def satInc (n v : Nat) : Nat := if v + 1 < 2 ^ n then v + 1 else 2 ^ n - 1

/-- The saturating sum of a counter of `n` bits. -/
def satAdd (n v k : Nat) : Nat := if v + k < 2 ^ n then v + k else 2 ^ n - 1

/-- Replace the element at index `i` of a list (no change beyond its end). -/
def listSet {α : Type} (l : List α) (i : Nat) (v : α) : List α := l.set i v

end Sys2Proof
end

