-- ==== Sys2Proof/Machine/State.lean ====
section
/-! DEFINITION. The machine's state as plain data. Registers whose value software reads or writes whole stand in `regs`, one
sparse map keyed by Register-window offset whose unlisted entries read as the register's reset value (Machine/RegMap.lean);
machine parts that a register only shows stand as typed data here, and the register is computed from them when read. -/

namespace Sys2Proof.Machine

/-- Why a step can stop with a fault. -/
inductive Fault where
  /-- Raised by MEMORY_WINDOW_ACCESS: the access runs past the end of the 64 GiB window (R244), to addresses that do not
  exist. Safe: the hardware has no such access. -/
  | windowOverrun
deriving DecidableEq, Repr

/-- Why a command has no meaning. -/
inductive Refusal where
  /-- A command not modelled yet; raised by the dispatcher's arms only. Safe. -/
  | notModelled (mnemonic : String)
  /-- An operand list whose length no such command has (WellFormed.lean); raised by the meanings of the commands that
  carry lists. Safe: no such command exists. -/
  | illFormed
deriving DecidableEq, Repr

/-! ## Barn sequencers (chapter 6, 7) -/

/-- STATE of SEQ_STATUS (R196). -/
inductive SeqPhase where
  | idle | run | fallow | cc
deriving DecidableEq, Repr

/-- An open loop (R181): count minus 1, counter, and the word after its LOOP. -/
structure Loop where
  cntM1 : BitVec 20
  ctr : BitVec 20
  after : BitVec 13
deriving DecidableEq, Repr

/-- A restart snapshot (R200, R355); loops outermost first. -/
structure Snap where
  pc : BitVec 13
  ccBank : Bool
  active : Bool
  swapped : Bool
  loops : List Loop
  wcfg0 : BitVec 118
  wcfg1 : BitVec 118
  /-- a table load of R129 is still due (no snapshot word shows it) -/
  tloadDue : Bool
  /-- what the words of the loops above DEPTH hold, where LOAD copied them (R355) -/
  above : List Loop := []
deriving DecidableEq, Repr

/-- An END or YIELD that waits for earlier work (R185). -/
structure Boundary where
  isEnd : Bool
  cc : Bool
  addr : BitVec 13
  /-- the checks of R185 have passed and a commit holds the barn here (R474) -/
  held : Bool
  /-- the epoch check failed here (R210) -/
  stale : Bool
deriving DecidableEq, Repr

/-- A FALLOW in progress (R186): its WINDOW in µs and, once open, the tick it opened at. -/
structure Fallow where
  window : Nat
  openedAt : Option Nat
deriving DecidableEq, Repr

/-- A SIGNAL in the signal queue (R183), with the sequence number it was issued at. -/
structure SigEntry where
  kind : Nat
  target : Nat
  token : Nat
  n : Nat
  scopeA : Bool
  scopeM : Bool
  seq : Nat
  /-- where the SIGNAL stands (FAULT_PC, R196) -/
  pc : BitVec 13
deriving DecidableEq, Repr

/-- A bin saved at catch-crop entry (R194). -/
structure SavedBin where
  eng : Nat
  bin : Nat
  form : Nat
  carried : Bool
deriving DecidableEq, Repr

/-- The main program's state saved at catch-crop entry (R194). -/
structure CcSave where
  swapped : Bool
  loops : List Loop
  wcfg0 : BitVec 118
  wcfg1 : BitVec 118
  tloadDue : Bool
  retPc : BitVec 13
  bins : List SavedBin
deriving DecidableEq, Repr

/-- What sets an IDLE barn to work (R192, R202). -/
inductive GoKind where
  | start | go
deriving DecidableEq, Repr

/-- A barn sequencer. -/
structure Barn where
  phase : SeqPhase
  active : Bool
  swapPending : Bool
  pc : BitVec 13
  boundary : Option Boundary
  /-- the WAIT at which issue stands: counter and N (R182, R473) -/
  waiting : Option (Nat × Nat)
  fallow : Option Fallow
  swapped : Bool
  loops : List Loop
  wcfg0 : BitVec 118
  wcfg1 : BitVec 118
  /-- the TLOAD of the present WCFG half 0 has not been made yet (R129) -/
  tloadDue : Bool
  /-- sequence number of the next operation issued -/
  seq : Nat
  sigQ : List SigEntry
  snap : Snap
  staging : CMap 32
  /-- the step snapshot (R205); none where no segment has begun in the step -/
  stepSnap : Option Snap
  stepTokens : List (BitVec 16)
  /-- per token counter, the sum of N over the WAITs the segment has satisfied (R200) -/
  waitSums : List Nat
  /-- Flumes whose stream the segment has popped a run of (R208) -/
  popped : List Nat
  segSignals : BitVec 16
  suppress : BitVec 16
  pendingRestart : Bool
  /-- a GO that FP-B owes the barn (R202, R293) -/
  restartDue : Bool
  /-- a START or GO that a waiting commit holds back (R474) -/
  goHeld : Option GoKind
  escalated : Bool
  /-- the segment has handed a tile or a SENDW run to a port, or issued a MILLOP (R203) -/
  handed : Bool
  /-- instructions issued since the last main-bank END, YIELD or START (R473) -/
  issued : Nat
  ccPc : BitVec 13
  ccLoops : List Loop
  ccSave : Option CcSave
  /-- catch-crop entries of the span (R232) -/
  ccEntries : Nat
  /-- the segment that runs is a replay (R202, R224) -/
  replaying : Bool
  /-- halts at its next boundary for a PAGE_FAULT of a stream (R208) -/
  pageHalt : Bool
  /-- aborted by a step abort and not yet restarted (R205, R207) -/
  stepAborted : Bool
  /-- an abort that waits for a slice of the barn to end (R409), and whether it is a step abort's -/
  abortHeld : Option Bool
  offline : Bool
  offApplied : Bool
deriving DecidableEq, Repr

/-! ## Engines (chapters 3 to 6) -/

/-- STATE of a bin (R69, R91). -/
inductive BinState where
  | invalid | filling | settling | held | draining
deriving DecidableEq, Repr

/-- INV_REASON (R91). -/
inductive InvReason where
  | reset | abort | checksum | limit
deriving DecidableEq, Repr

/-- A bin: its elements (key 128 p + q), its checksum lanes and absolute sums as binary64 (R83). -/
structure Bin where
  state : BinState
  inv : InvReason
  form : Nat
  carried : Bool
  steps : Nat
  content : CMap 36
  rowSum : List (BitVec 64)
  rowAbs : List (BitVec 64)
  colSum : List (BitVec 64)
  colAbs : List (BitVec 64)
  /-- the corner lane (R51) -/
  corner : BitVec 64
deriving DecidableEq, Repr

/-- An input queue entry (R67); `bad` lists the bytes that lie in uncorrectable Crib words (R62, R131), each with whether ERR_INJECT
made it so (R405); `seq` is the operation that armed its generator; `aligned` is false for a Crib run that starts on no 128-byte
boundary (R64). -/
structure IqEntry where
  data : List Byte
  bad : List (Nat × Bool)
  seq : Nat
  aligned : Bool
deriving DecidableEq, Repr

/-- An output queue entry: a drained row, byte enables (R135; empty: all on), a row not to be written, its operation. -/
structure OqEntry where
  data : List Byte
  enables : List Bool
  skip : Bool
  seq : Nat
deriving DecidableEq, Repr

/-- An array-queue operation, resolved at issue (R154). -/
structure ArrOp where
  isBinwr : Bool
  seq : Nat
  pc : BitVec 13
  form : Nat
  colq : Nat
  rowq : Nat
  colTurn : Bool
  rowTurn : Bool
  turnL : Nat
  fmtA : Nat
  fmtB : Nat
  /-- physical bin of logical bin 0 and 1 for a complex product, of the named bin twice otherwise -/
  bin0 : Nat
  bin1 : Nat
  /-- zero start; else the chain accumulates -/
  zs : Bool
  reloadSlot : Option Nat
  steps : Nat
  layer : Nat
  mb : Nat
  row0 : Nat
  col0 : Nat
  k0 : Nat
  cc : Bool
  pass : Nat
  t : Nat
  colScale : List Byte
  rowScale : List Byte
  /-- the zero start or the reload has been made -/
  started : Bool
deriving DecidableEq, Repr

/-- The kinds of Winnow-queue operation (R153). -/
inductive WinKind where
  | wcfg | drain | binrd | spill
deriving DecidableEq, Repr

/-- A Winnow-queue operation with the configuration it took (R125). -/
structure WinOp where
  kind : WinKind
  seq : Nat
  pc : BitVec 13
  bin : Nat
  form : Nat
  wcfg0 : BitVec 118
  wcfg1 : BitVec 118
  tload : Bool
  outq : Nat
  slot : Nat
  layer : Nat
  mb : Nat
  row0 : Nat
  col0 : Nat
  cc : Bool
  drainNo : Nat
deriving DecidableEq, Repr

/-- The drain-side operation that Winnow runs (R145): the runs it pops before row 0, the next row, the column sums so far,
the first failed check. -/
structure DrainRun where
  op : WinOp
  /-- every run the drain names has been popped -/
  begun : Bool
  tab : List Byte
  tabBad : List (Nat × Bool)
  bias : List Byte
  mask : List Byte
  exps : List Byte
  row : Nat
  colSums : List (BitVec 64)
  /-- first failed check: column or row check, its index, whether ERR_INJECT made it (R88, R90) -/
  fail : Option (Bool × Nat × Bool)
deriving DecidableEq, Repr

/-- A Weir tile in a hold buffer (R140). -/
structure HoldBuf where
  seq : Nat
  port : Nat
  red : Nat
  layer : Nat
  row0 : Nat
  col0 : Nat
  cc : Bool
  rows : List (List Byte)
  released : Bool
deriving DecidableEq, Repr

/-- The movement operations (R178). -/
inductive MovKind where
  | fill | spill | sendw | millop
deriving DecidableEq, Repr

/-- A movement-queue operation and the generators it armed. -/
structure MovOp where
  kind : MovKind
  seq : Nat
  q : Nat
  port : Nat
  chan : Nat
  mop : Nat
  gens : List Nat
deriving DecidableEq, Repr

/-- One level of an address-generator descriptor (R159): outer levels name a loop depth. -/
structure AgLevel where
  outer : Bool
  cnt : Nat
  depth : Nat
  stride : Int
deriving DecidableEq, Repr

/-- A decoded address-generator descriptor (R159); `len` is RUN + 1. -/
structure AgDesc where
  agn : Nat
  dir : Nat
  qsel : Nat
  space : Nat
  len : Nat
  base : Nat
  ring : Nat
  levels : List AgLevel
deriving DecidableEq, Repr

/-- An arming (R166): the descriptor, the loop counters at issue, the runs produced, the operation that armed it. -/
structure Arming where
  d : AgDesc
  ctrs : List Nat
  idx : Nat
  seq : Nat
deriving DecidableEq, Repr

/-- An address generator. -/
structure Gen where
  cur : Option Arming
  pend : Option Arming
deriving DecidableEq, Repr

/-- One row of a TURN slab with its scale bytes (R65, R167). -/
structure SlabRow where
  data : List Byte
  scale : List Byte
deriving DecidableEq, Repr

/-- A feeder's slabs (R65): whole slabs waiting, and the rows of the one that fills. -/
structure Feeder where
  ready : List (List SlabRow)
  filling : List SlabRow
deriving DecidableEq, Repr

/-- A function table as loaded (R128, R131): its bytes, and those that lie in uncorrectable words. -/
structure FnTable where
  bytes : List Byte
  bad : List (Nat × Bool)
deriving DecidableEq, Repr

/-- A sheaf engine's parts that no register holds. -/
structure Engine where
  bins : Vector Bin 2
  iq : Vector (List IqEntry) 8
  oq : Vector (List OqEntry) 4
  arrQ : List ArrOp
  winQ : List WinOp
  movQ : List MovOp
  gens : Vector Gen 8
  colF : Feeder
  rowF : Feeder
  drain : Option DrainRun
  holds : List HoldBuf
  tables : Vector (Option FnTable) 2
  /-- completion tokens under way: physical bin, sequence number, and whether the operation is then complete (R172) -/
  settle : List (Nat × Nat × Bool)
  workBeats : BitVec 64
  paceBeats : BitVec 64
  /-- work counter at the last Gauge sample -/
  workMark : BitVec 64
  drainNo : Nat
  chkTimes : List Nat
  retired : Bool
  /-- of a retired engine: BIN_MAP and CHK_COUNT.IN_WINDOW as they stood when it retired (R92) -/
  mapAt : Bool
  inWindowAt : Nat
  /-- of a retired engine: the step in which it retired has ended, and its STEP_NF counts no more (R92, R144) -/
  stepOver : Bool
  offline : Bool
  offApplied : Bool
deriving DecidableEq, Repr

/-! ## Flumes (chapter 9) -/

/-- One level of a Flume descriptor (R273); `cnt` is the iteration count. -/
structure FLevel where
  cnt : Nat
  srcStride : Int
  dstStride : Int
deriving DecidableEq, Repr

/-- A decoded Flume descriptor (R273); `elem` in bytes. -/
structure FDesc where
  srcSpace : Nat
  dstSpace : Nat
  srcRing : Nat
  dstRing : Nat
  bcast : Bool
  engLevel : Nat
  elem : Nat
  engMask : Nat
  barn : Nat
  weirPort : Nat
  weirChan : Nat
  srcBase : Nat
  dstBase : Nat
  link : Option Nat
  gateN : Nat
  preload : Nat
  gateEvery : Nat
  sigEvery : Nat
  sigKind : Nat
  sigTarget : Nat
  sigToken : Nat
  sigN : Nat
  sigTail : Bool
  levels : List FLevel
deriving DecidableEq, Repr

/-- STATE of a Flume (R280). -/
inductive FlState where
  | idle | active | activeNext | aborted
deriving DecidableEq, Repr

/-- The task in the current slot. Elements 0 to `prefixDone - 1` are complete, and those in `ackedAhead` too. -/
structure Task where
  addr : Nat
  d : FDesc
  issued : Nat
  prefixDone : Nat
  ackedAhead : List Nat
  gates : Nat
  signalled : Nat
  suppress : Nat
  /-- TOKIN as it would be without this task's PRELOAD and gates (R292 step 5) -/
  tokBase : Nat
  /-- signals of the task that its consumers have received (R292 step 4, R293) -/
  recv : Nat
  tailSent : Bool
deriving DecidableEq, Repr

/-- Who must be refused when a fetched descriptor fails (R276). -/
inductive FetchFor where
  | arm (w : Writer)
  | link
  | restart (w : Writer) (snap : Bool)
deriving DecidableEq, Repr

/-- A descriptor fetch under way (R279). -/
structure Fetch where
  addr : Nat
  who : FetchFor
deriving DecidableEq, Repr

/-- A bulk request that waits for its reply (R336). -/
structure BulkWait where
  tag : Nat
  elem : Nat
  offset : Nat
  dst : Option Nat
  bytes : Nat
  since : Nat
  /-- the bytes a read brought, held until the requests before it on the same bytes have landed (R278) -/
  data : Option (List Byte)
deriving DecidableEq, Repr

/-- A part of an issued bulk element that waits for a tag (R285, R286): its offset, length, and landing address or bytes. -/
structure BulkTodo where
  elem : Nat
  offset : Nat
  len : Nat
  dst : Option Nat
  data : List Byte
deriving DecidableEq, Repr

/-- Tags that an element of a Flume holds of one pool until it completes (R285). -/
structure TagHold where
  pool : TagPool
  elem : Nat
  n : Nat
deriving DecidableEq, Repr

/-- Why a task aborts, and what it leaves (R292). -/
structure FAbort where
  cause : Nat
  /-- a step abort: no signal, no report (R294) -/
  step : Bool := false
  /-- host page of a host fault -/
  va : Option Nat := none
  /-- issued elements that did not complete -/
  failed : List Nat := []
  /-- made by ERR_INJECT (R405) -/
  inj : Bool := false
deriving DecidableEq, Repr

/-- A Flume's parts that no register holds. -/
structure Flume where
  state : FlState
  cur : Option Task
  nxt : Option (Nat × FDesc)
  fetch : Option Fetch
  heldArms : List Writer
  curAddr : Nat
  gated : Bool
  hgWait : Bool
  mid : Bool
  /-- Headgate bucket in units of 10⁻⁴ byte (R288) -/
  bucket : Nat
  waitVa : Option (BitVec 64)
  waitTag : Bool
  pageReq : Option Nat
  bulk : List BulkWait
  bulkTodo : List BulkTodo
  /-- elements whose host read is out, its data not yet back (R278, R290), oldest first -/
  hostDue : List Nat
  /-- NEXT_ADDR as an abort recorded it, of a descriptor whose fetch it ended (R292 step 3) -/
  nextAt : Option Nat
  tags : List TagHold
  /-- an abort that waits for the requests issued before it (R292 step 2) -/
  abortHeld : Option FAbort
  /-- the cause that the ABORTED task stands for; none for a step abort -/
  abortCause : Option Nat
  /-- the restart after a page was granted, owed by an FP-B that does not run (R202, R293) -/
  resumeDue : Bool
  bytes : BitVec 64
  /-- stopped by a freeze with a descriptor held at its boundary (R484) -/
  heldNext : Bool
  /-- held at a descriptor boundary by a commit (R474) -/
  boundaryHeld : Bool
  stepAborted : Bool
  retired : Bool
  offline : Bool
  offApplied : Bool
deriving DecidableEq, Repr

/-! ## Stacks and Mills (chapter 8) -/

/-- STATE of MK_STATUS (R269). -/
inductive MkState where
  | idle | awaiting | running | halted | awaitRelease | pausedT3
deriving DecidableEq, Repr

/-- A stack's parts that no register holds. -/
structure Stack where
  vu : MkState
  mkRec : Nat
  /-- the step's table completed or was skipped: the unit stands at its step safe point (R253) -/
  mkAtSafe : Bool
  /-- every record of the step's table completed (R256) -/
  mkComplete : Bool
  mkSkipped : Bool
  mkStopped : Bool
  /-- a record of the step has written in place (R258) -/
  mkWrote : Bool
  /-- the table that runs writes the alternate generation (R256) -/
  mkAlt : Bool
  nfReported : Bool
  pondRetired : Bool
  lakeRetired : Bool
  pondOffline : Bool
  lakeOffline : Bool
  pondOffApplied : Bool
  lakeOffApplied : Bool
  /-- a line of each row to spare, and whether the spare is due at once (R260, R263) -/
  spareQ : List (Nat × Bool)
  /-- spare rows that the last repair analysis left in each Pond and each Lake bank that the next list does not name (R264) -/
  spare0 : Nat × Nat
  /-- and in each bank that it names -/
  bankSpares : List (Nat × Nat)
  /-- rows spared since, per die and bank -/
  sparesUsed : List (Nat × Nat)
  /-- repairs in module flash: the row, and the lines of it that were written as zeros (R262, R263) -/
  repairLog : List (Nat × List Nat)
  /-- rows that the repair analysis of the last cold start assigned (R269) -/
  assigned : Nat
  /-- corrected lines per row, as tick lists (R260) -/
  ceRows : List (Nat × List Nat)
  trainedTemp : Option Nat
deriving DecidableEq, Repr

/-! ## Weir ports and jobs (chapters 10, 11) -/

/-- LINK of PORT_STATUS (R340). -/
inductive Link where
  | down | training | up | retired
deriving DecidableEq, Repr

/-- A packet: its 128-bit header (R306) and payload. -/
structure Packet where
  hdr : BitVec 128
  payload : List Byte
deriving DecidableEq, Repr

/-- What a port took from received flits, in order. -/
inductive RxItem where
  | sym (v : BitVec 64)
  | pkt (p : Packet)
deriving DecidableEq, Repr

/-- A flit sent (R300). -/
structure TxFlit where
  tag : BitVec 20
  body : List Byte
deriving DecidableEq, Repr

/-- A flit on the line, with the lane that carries it (R301). -/
structure LineFlit where
  lane : Fin 4
  flit : TxFlit
deriving DecidableEq, Repr

/-- A sent packet whose tag is held until its answer (R285, R313, R335, R336), and when it was sent. -/
structure HeldTag where
  tag : Nat
  pkt : Packet
  since : Nat
deriving DecidableEq, Repr

/-- One row waiting at a send port's adder: from Winnow, a bucket, or upstream; `since` is when its wait for the other row began
(R330). -/
structure RedRow where
  coll : Nat
  tile : Nat
  row : Nat
  data : List Byte
  since : Nat
deriving DecidableEq, Repr

/-- A Weir port's parts that no register holds. -/
structure Port where
  link : Link
  lanes : BitVec 4
  suspect : Bool
  slowTx : Bool
  slowRx : Bool
  proto : Nat
  txSeq : BitVec 12
  replay : List (BitVec 12 × TxFlit)
  replaySince : Nat
  lineOut : List LineFlit
  /-- flits of the port's stream so far (R301) -/
  lineCount : Nat
  rxExpect : BitVec 12
  nakSent : Bool
  rxBuf : List Byte
  rxQ : List RxItem
  lastRx : Nat
  laneFails : Vector (List Nat) 4
  /-- lanes retired (R303, R396) -/
  lanesRetired : BitVec 4
  /-- a retirement by the partner: the first SEQ on the new lanes, and the lanes of the flits before it (R303) -/
  laneFrom : Option (BitVec 12 × BitVec 4)
  /-- cumulative credits received and used: TENSOR, BULK, TUNNEL, then REDUCE of job 0 to 15 (R304) -/
  credit : List (BitVec 16)
  used : List (BitVec 16)
  /-- cumulative credits granted to the partner, in the same order -/
  granted : List (BitVec 16)
  /-- cumulative units received, in the same order -/
  taken : List (BitVec 16)
  txSyms : List (BitVec 64)
  telQ : List (BitVec 64)
  /-- telemetry that waits to land: address and value (R268, R384) -/
  telLand : List (Nat × BitVec 64)
  /-- packets that wait to be sent, by class -/
  txPk : Vector (List Packet) 4
  /-- bytes of a packet whose first part has been sent (R300) -/
  txBuf : List Byte
  /-- deficits of REDUCE, TENSOR and BULK in bytes, and the class whose turn it is (R304) -/
  deficit : Vector Nat 4
  nextTag : Nat
  held : List HeldTag
  /-- rows of this module that wait at the send port's adder -/
  localRows : List RedRow
  /-- the step buffer: rows received here, trailer and all, that wait for the adder of their record's SEND port -/
  upRows : List RedRow
  /-- rows forwarded or landed since the last sample (R329) -/
  rowsDone : Nat
  csumTimes : List Nat
  discardReported : Bool
  promoReported : Bool
  retired : Bool
  offline : Bool
  offApplied : Bool
deriving DecidableEq, Repr

/-- Progress of one collective record in the step. -/
structure CollProg where
  idx : Nat
  /-- since when the record waits for its next all-gather or agreement packet (R330) -/
  since : Nat
  /-- agreement packets received (R323) -/
  agreed : Nat
  /-- ticks of this sample in which upstream rows of the next tile waited (R329) -/
  waited : Nat
  nextTile : Nat
  tacked : Nat
  landed : Nat
  /-- next exponents of the tile that lands now (R318) -/
  exps : List Byte
  agStarted : Bool
  agToSend : Nat
  agTacked : Nat
  agWritten : Nat
deriving DecidableEq, Repr

/-- What makes a report that may wait for lap 1 of the verdict. -/
inductive LateSite where
  | port (p : Nat)
  | ctl (k : Nat)
  | spring
  | engine (e : Nat)
  | barn (b : Nat)
deriving DecidableEq, Repr

/-- A report that waits for lap 1 of the verdict (R333). -/
structure LateReport where
  site : LateSite
  cause : Nat
  cls : Nat
  inj : Bool
  master : Nat
  detail : Nat
deriving DecidableEq, Repr

/-- A job's phase (R348), verdict and abort state (R326 to R333). -/
structure Job where
  phase : Nat
  map : Nat
  nf : Bool
  spike : Bool
  ready : Bool
  /-- the module has passed its bits into lap 0 (R327, R333) -/
  passed : Bool
  heldVerdict : Option (BitVec 64)
  heldResume : Option (BitVec 64)
  aborted : Bool
  cause : Nat
  origin : Nat
  late : Bool
  causeHeld : Bool
  /-- the cause met since the job committed, and the reports that are made at lap 1 (R333) -/
  lateCause : Option Nat
  lateReports : List LateReport
  slow : Bool
  /-- since when the job's agreements or all-gathers run (R330) -/
  collSince : Nat
deriving DecidableEq, Repr

/-! ## Tally and admission (chapters 7, 16) -/

/-- STATE of TX_STATUS (R477). -/
inductive TxState where
  | idle | opened | committing
deriving DecidableEq, Repr

/-- A shadow (R471): register offset, value, and whether its parity is good (R406). -/
structure Shadow where
  addr : Nat
  val : Word
  good : Bool
deriving DecidableEq, Repr

/-- A decoded admission record (R214). -/
structure AdmRec where
  barn : Nat
  rel : Nat
  catchCrop : Bool
  ccBins : Nat
  ccRec : Nat
  ccEntries : Nat
  ext : Nat
  engMask : Nat
  beats : Nat
  deadline : Nat
  fallowUs : Nat
  fallowMax : Nat
  segCount : Nat
  n : List Nat
  x : List Nat
  y : List Nat
deriving DecidableEq, Repr

/-- The timing of one barn's current record (R216, R217, R224). -/
structure Span where
  live : Bool
  recIx : Nat
  released : Bool
  /-- elapsed ticks of 6.4 ns -/
  timer : Nat
  segs : Nat
  missed : Bool
  sub : Nat
  /-- the table that the record stands in (R222) -/
  table : List AdmRec
  /-- a new table waits for the barn's swap (R222) -/
  fromNew : Bool
  /-- voided by a step abort, to be released again at the restart (R225) -/
  voided : Bool
deriving DecidableEq, Repr

/-- The Tally. -/
structure Tally where
  state : TxState
  owner : Nat
  overflow : Bool
  result : Nat
  lastCause : Nat
  txId : BitVec 16
  shadows : List Shadow
  nShadows : Nat
  waitBarns : Nat
  waitStep : Bool
  waitFlumes : Nat
  /-- ticks since the COMMIT -/
  elapsed : Nat
  timeoutTicks : Nat
  commitEpoch : BitVec 16
  applied : Nat
  failed : Nat
  /-- the step boundary has run steps 1 to 3 and is held for the commit (R474) -/
  stepHeld : Bool
  /-- a committed STEP applies at this boundary (R120) -/
  stepCommitted : Bool
  /-- the step that ends is a checkpoint step (R353) -/
  ckptStep : Bool
  live : Bool
  /-- records and margin that the commit in progress was admitted with (R220) -/
  nextRecs : List AdmRec
  nextMargin : Nat
  /-- the commit checks wait for the memory of a table (R268) -/
  checksDue : Bool
  /-- the collective records that the commit in progress read, and those of the applied table, as the ports hold them (R310) -/
  nextColls : List (BitVec 512)
  colls : List (BitVec 512)
  /-- the records of the live admission -/
  recs : List AdmRec
  spans : Vector Span 8
  /-- CADENCE and CAD_PERIOD as the live admission took them (R226, R238), and the time since the last cadence tick in
  10⁻¹⁰ s -/
  cadence : Bool
  cadPeriod : Nat
  cadElapsed : Nat
deriving DecidableEq, Repr

/-! ## Gauge, supply, starts (chapters 12 to 15) -/

/-- The module's power states (R382). -/
inductive Power where
  | off | start | test | run | hold | stopped
deriving DecidableEq, Repr

/-- Gauge's loops (chapter 12). -/
structure Gauge where
  /-- 10⁻¹⁰ s since the last sample (R44, R49) -/
  sampleElapsed : Nat
  qPolicy : Nat
  /-- the power cap's part of Q_policy (R373) -/
  qCap : Nat
  qPower : Nat
  qThermal : Nat
  qHold : Nat
  qFw : Nat
  excess : Nat
  prev : Readings
  alert : Bool
  alertUntil : Nat
  fwMode : Bool
  fwFallback : Bool
  /-- the native loops run although GOV_MODE = 1, until FP-P writes FW_PACE (R377) -/
  fwNative : Bool
  polClamped : Bool
  pcapUnmet : Bool
  stopReason : Nat
  /-- rails below their warning level, the first of the hold first (R379) -/
  holdRails : List Rail
  /-- time of the crossing that began the hold, below 0 where a start has begun since (R379) -/
  holdSince : Int
  boTimes : List Nat
  telItem : Nat
  tripped : Bool
deriving DecidableEq, Repr

/-- STATE of FP_STATUS (R435). -/
inductive FpState where
  | halted | loading | running
deriving DecidableEq, Repr

/-- A slot of module flash (R419). A slot with no bytes holds the image the part was shipped with, which no command describes
(Config.factorySvn and its neighbours). -/
structure ImageSlot where
  manifest : List Byte
  image : List Byte
  valid : Bool
deriving DecidableEq, Repr

/-- A firmware processor. -/
structure Fp where
  state : FpState
  slotB : Bool
  exhausted : Bool
  newPending : Bool
  /-- a verified update in the inactive slot waits for its activation (R423) -/
  updated : Bool
  /-- the inactive slot is being written by an update (R423) -/
  writing : Bool
  /-- a RESTART written while the processor was frozen (R415) -/
  restartHeld : Bool
  slots : Vector ImageSlot 2
  runDigest : List Byte
  wdElapsed : Nat
  restartTimes : List Nat
  restarts : Nat
  /-- log ring bytes, entry i at 32 i (R418) -/
  log : CMap 8
  /-- entries written since power-on; HEAD and WRAPS follow from it -/
  logCount : Nat
  wdInStart : Nat
  /-- local memory (R413), and per 32-bit word how many check bits ERR_INJECT has inverted (R406) -/
  ram : CMap 8
  ramBad : CMap 2
deriving DecidableEq, Repr

/-- What the fuses hold (R40, R420, R424, R478). -/
structure Fuses where
  present : BitVec 64
  part : BitVec 16
  grade : Nat
  stepping : BitVec 8
  serial : BitVec 64
  floor : Nat
  floorParity : Bool
  svn : Nat
  signKey : List Byte
  idSeed : Option (List Byte)
deriving DecidableEq, Repr

/-- The module's start machinery, straps and clocks. -/
structure Module where
  power : Power
  straps : Straps
  startWarm : Bool
  startTicks : Nat
  /-- of a start in progress: the first of its steps that is not complete (R430, R431) -/
  startStep : Nat
  /-- a start, warm or cold, that waits for the running slices to end (R409, R426) -/
  startDue : Option Bool
  failTicks : Option Nat
  coldHeld : Bool
  locked : Bool
  starts : Nat
  /-- floor beat as loaded (R39, R40) -/
  floorPs : Nat
  defaulted : Bool
  mgmtOn : Bool
  /-- Keilgo's certificate for the identity key, in module flash (R424) -/
  cert : List Byte
  ref100 : Bool
  ref156 : Bool
deriving DecidableEq, Repr

/-! ## Host interface, management port, test port -/

/-- What the module sends to its host. -/
inductive HostMsg where
  | msix (v : Nat)
  | readData (data : List Byte)
  | completerAbort
  | unsupportedRequest
  | retryStatus
  | translationRequest (f : Nat) (va : BitVec 64)
  | pageRequest (f : Nat) (va : BitVec 64) (prgi : Nat)
  | invalidationDone (va : BitVec 64)
  | memWrite (va : BitVec 64) (data : List Byte)
deriving DecidableEq, Repr

/-- What the management port answers or sends. -/
inductive MgmtMsg where
  | completion (code : Nat) (words : List Word)
  | sensor (value : Nat)
  | platformEvent (word0 : Word)
  | certificate (data : List Byte)
deriving DecidableEq, Repr

/-- Where the completion of a tunnelled request goes (R345): the port and header values it came with. -/
structure TunReply where
  port : Nat
  src : Nat
  dst : Nat
  tag : Nat
deriving DecidableEq, Repr

/-- A host window access, or one that a tunnel carries, that waits on a stack at T3 (R268): its device address, and where its
completion goes unless to the host. -/
structure HostWait where
  addr : Nat
  acc : MemAccess
  since : Nat
  reply : Option TunReply
deriving DecidableEq, Repr

/-- A request to be tunnelled (R345): KIND 0 RWR, 1 RRD, 2 MWR, 3 MRD; the target's offset or device address, RDLEN, the bytes of
the answer that go to the host, and the payload. -/
structure TunReq where
  kind : Nat
  addr : Nat
  rdlen : Nat
  take : Nat
  data : List Byte
deriving DecidableEq, Repr

/-- A tunnelled access that waits for its CPL (R346): of the Register window, or of the Memory window. -/
structure TunWait where
  tag : Nat
  isRead : Bool
  ofMem : Bool
  take : Nat
  since : Nat
deriving DecidableEq, Repr

/-- What waits at the head for its turn (R346): a host access, or a write of TUN_CTRL. -/
inductive TunItem where
  | req (r : TunReq)
  | ctrl (v : Word)
deriving DecidableEq, Repr

/-- What waits behind earlier Memory window accesses (R442): a write of WIN_BASE, or an access made after one, which the tunnel may
carry. -/
inductive WindowItem where
  | base (v : Word)
  | access (acc : MemAccess) (tunnelled : Bool)
deriving DecidableEq, Repr

/-- The host link and windows. -/
structure HostIf where
  linkUp : Bool
  rate : Nat
  width : Nat
  flit : Bool
  atsEn : Bool
  priEn : Bool
  d3hot : Bool
  accMaj : Nat
  reqMaj : Nat
  msix : CMap 32
  pba : BitVec 64
  out : List HostMsg
  atc : List (BitVec 64)
  /-- invalidations not yet complete: address and length (R290) -/
  inval : List (BitVec 64 × Nat)
  prgi : Nat
  waiting : List HostWait
  winHeld : List WindowItem
  tun : List TunWait
  tunErr : Bool
  tunLast : Nat
  tunHeld : List TunItem
  /-- completions of tunnelled requests that wait for the route table's memory: DST, TAG, STATUS, data (R268, R345) -/
  cplHeld : List (Nat × Nat × Nat × List Byte)
  badAccess : Nat
  completerAborts : Nat
deriving DecidableEq, Repr

/-- The management port. -/
structure Mgmt where
  smbEid : BitVec 8
  pcieEid : BitVec 8
  /-- SMB_SPEED: the clock of the last SMBus packet (R480) -/
  smbSpeed : Nat
  out : List MgmtMsg
  malformed : Nat
  dropped : Nat
deriving DecidableEq, Repr

/-- TAP instruction in force (R458). -/
inductive TapInstr where
  | bypass | idcode | sample | extest | extestPulse
deriving DecidableEq, Repr

/-- The test access port: its instruction, boundary cells, and the word its data register shows. -/
structure Tap where
  instr : TapInstr
  cells : List Bool
  driving : Bool
  shown : List Bool
deriving DecidableEq, Repr

/-! ## Slices and tags -/

/-- A requested slice (R394, R407). -/
structure SliceReq where
  code : Nat
  inst : Nat
deriving DecidableEq, Repr

/-- A running slice, the tick it began, and for a LINK slice FEC_CE as it began and whether a flit has failed its CRC since
(R407); `inWindow` where it runs in an open fallow window. -/
structure SliceRun where
  req : SliceReq
  since : Nat
  fecMark : Nat
  crcFailed : Bool
  inWindow : Bool
deriving DecidableEq, Repr

/-- What would take a region away in the middle of a slice, and waits for the slice to end (R409). -/
inductive RegionAct where
  | engine (e cause detail : Nat) (inj : Bool)
  | channel (k : Nat) (t : Tier) (detail : Nat) (inj : Bool)
  | port (p : Nat)
  | flume (f cause : Nat)
  | remove (ty u : Nat)
deriving DecidableEq, Repr

/-- A write to a Granary bank under test, which waits (R228). -/
structure GranWait where
  w : Writer
  addr : Nat
  data : List Byte
deriving DecidableEq, Repr

/-- A tag pool some master has waited for (R285, R286): the last master served, those that wait, and one entry for each tag granted
to a master that has not used it yet. -/
structure PoolState where
  pool : TagPool
  last : Nat
  waiting : List Nat
  granted : List Nat
deriving DecidableEq, Repr

/-- The machine's state. -/
structure State where
  /-- reference-clock ticks of 6.4 ns since the start (GL_TIME, R394) -/
  time : Nat
  regs : CMap 32
  /-- device memory of R242 -/
  mem : CMap 8
  /-- per 64-byte line: 1 first check symbol inverted, 2 first two inverted (R265), 3 damaged beyond correction -/
  memTag : CMap 2
  /-- Cribs: byte o of engine e at e × 4 MiB + o -/
  crib : CMap 8
  /-- per 64-bit Crib word: check bits inverted (R90) -/
  cribBad : CMap 1
  /-- Lofts: byte o of barn b at b × 32 MiB + o -/
  loft : CMap 8
  /-- Granary words: barn b, bank k (0, 1 main, 2 catch-crop), word w at b × 32768 + k × 8192 + w -/
  gran : CMap 128
  /-- per 64-bit half of a Granary word: check bits inverted (R190); half h of word k at 2 k + h -/
  granBad : CMap 1
  barns : Vector Barn 8
  engines : Vector Engine 64
  flumes : Vector Flume 32
  memStacks : Vector Stack 16
  ports : Vector Port 24
  jobs : Vector Job 16
  coll : List CollProg
  /-- bytes sent and landed on each point-to-point channel this step (R335) -/
  chanSent : List (Nat × Nat)
  chanLanded : List (Nat × Nat)
  tally : Tally
  gauge : Gauge
  fps : Vector Fp 4
  fuses : Fuses
  module : Module
  host : HostIf
  mgmt : Mgmt
  tap : Tap
  /-- Gleaner log: word i of entry n at 4 n + i (R392) -/
  glog : CMap 32
  /-- events logged since the start; HEAD and WRAPS follow from it -/
  glogCount : Nat
  /-- per summary bit, the classes of its events since the bit was last 0, bit c for class c (R393) -/
  fswCls : CMap 8
  fatal : Bool
  /-- seed registers whose parity fails (R122), by their place from SEED0 to STEP, and whether ERR_INJECT made each so -/
  springBad : List (Nat × Bool)
  lsdPending : Option (Word × Word × Nat)
  /-- per summary bit, the classes of its events in the present tick (R389) -/
  fswTick : CMap 8
  slicePend : List SliceReq
  /-- the slices that run, oldest first -/
  sliceRun : List SliceRun
  regionActs : List RegionAct
  granWaits : List GranWait
  pools : List PoolState
  /-- the model's own counter: the next free value (assumption 3) -/
  freeIx : Nat
  pending : List Instr
deriving DecidableEq, Repr

/-! ## Reset -/

def Snap.reset : Snap := ⟨0, false, false, false, [], 0, 0, false, []⟩

def Barn.reset : Barn :=
  { phase := .idle, active := false, swapPending := false, pc := 0, boundary := none, waiting := none,
    fallow := none, swapped := false, loops := [], wcfg0 := 0, wcfg1 := 0, tloadDue := false, seq := 0, sigQ := [],
    snap := Snap.reset, staging := [], stepSnap := none, stepTokens := List.replicate 16 0,
    waitSums := List.replicate 16 0, popped := [], segSignals := 0, suppress := 0, pendingRestart := false, restartDue := false,
    goHeld := none, escalated := false,
    handed := false, issued := 0, ccPc := 0, ccLoops := [], ccSave := none, ccEntries := 0, replaying := false,
    pageHalt := false, stepAborted := false, abortHeld := none, offline := false, offApplied := false }

def Bin.reset : Bin :=
  { state := .invalid, inv := .reset, form := 0, carried := false, steps := 0, content := [], rowSum := [], rowAbs := [],
    colSum := [], colAbs := [], corner := 0 }

def Feeder.reset : Feeder := ⟨[], []⟩

def Engine.reset : Engine :=
  { bins := Vector.replicate 2 Bin.reset, iq := Vector.replicate 8 [], oq := Vector.replicate 4 [], arrQ := [], winQ := [],
    movQ := [], gens := Vector.replicate 8 ⟨none, none⟩, colF := Feeder.reset, rowF := Feeder.reset, drain := none,
    holds := [], tables := Vector.replicate 2 none, settle := [], workBeats := 0, paceBeats := 0,
    workMark := 0, drainNo := 0, chkTimes := [], retired := false, mapAt := false, inWindowAt := 0, stepOver := false,
    offline := false,
    offApplied := false }

/-- The Headgate bucket starts full at the reset HG_BURST of 65,536 bytes (R288, R296). -/
def Flume.reset : Flume :=
  { state := .idle, cur := none, nxt := none, fetch := none, heldArms := [], curAddr := 0, gated := false, hgWait := false,
    mid := false, bucket := 655360000, waitVa := none, waitTag := false, pageReq := none, bulk := [], bulkTodo := [], hostDue := [],
    nextAt := none, tags := [],
    abortHeld := none, abortCause := none, resumeDue := false, bytes := 0,
    heldNext := false, boundaryHeld := false, stepAborted := false, retired := false, offline := false,
    offApplied := false }

def Stack.reset : Stack :=
  { vu := .idle, mkRec := 0, mkAtSafe := false, mkComplete := false, mkSkipped := false, mkStopped := false,
    mkWrote := false, mkAlt := false, nfReported := false, pondRetired := false, lakeRetired := false, pondOffline := false,
    lakeOffline := false, pondOffApplied := false, lakeOffApplied := false, spareQ := [],
    spare0 := (64, 128), bankSpares := [], sparesUsed := [], repairLog := [], assigned := 0, ceRows := [], trainedTemp := none }

def Port.reset : Port :=
  { link := .down, lanes := 0, suspect := false, slowTx := false, slowRx := false, proto := 0, txSeq := 0, replay := [],
    replaySince := 0, lineOut := [], lineCount := 0, rxExpect := 0, nakSent := false, rxBuf := [], rxQ := [], lastRx := 0,
    laneFails := Vector.replicate 4 [], lanesRetired := 0, laneFrom := none, credit := List.replicate 19 0,
    used := List.replicate 19 0, granted := List.replicate 19 0, taken := List.replicate 19 0, txSyms := [], telQ := [], telLand := [],
    txPk := Vector.replicate 4 [], txBuf := [],
    deficit := Vector.replicate 4 0, nextTag := 0, held := [], localRows := [], upRows := [], rowsDone := 0,
    csumTimes := [], discardReported := false, promoReported := false, retired := false, offline := false, offApplied := false }

def Job.reset : Job :=
  { phase := 0, map := 0, nf := false, spike := false, ready := false, passed := false, heldVerdict := none,
    heldResume := none, aborted := false, cause := 0, origin := 0, late := false, causeHeld := false, lateCause := none,
    lateReports := [], slow := false, collSince := 0 }

def Span.reset : Span :=
  { live := false, recIx := 0, released := false, timer := 0, segs := 0, missed := false, sub := 0, table := [], fromNew := false,
    voided := false }

def Tally.reset : Tally :=
  { state := .idle, owner := 7, overflow := false, result := 0, lastCause := 0, txId := 0, shadows := [], nShadows := 0,
    waitBarns := 0, waitStep := false, waitFlumes := 0, elapsed := 0, timeoutTicks := 0, commitEpoch := 0, applied := 0,
    failed := 0, stepHeld := false, stepCommitted := false, ckptStep := false, live := false, nextRecs := [], nextMargin := 0,
    checksDue := false, nextColls := [], colls := [], recs := [], spans := Vector.replicate 8 Span.reset, cadence := false,
    cadPeriod := 0, cadElapsed := 0 }

/-- No reading has been taken (assumption 6). -/
def Readings.none : Readings := ⟨[], [], [], [], Option.none, Option.none⟩

def Gauge.reset : Gauge :=
  { sampleElapsed := 0, qPolicy := 256, qCap := 256, qPower := 256, qThermal := 256, qHold := 256, qFw := 256, excess := 0,
    prev := Readings.none, alert := false, alertUntil := 0, fwMode := false, fwFallback := false, fwNative := false,
    polClamped := false, pcapUnmet := false, stopReason := 0, holdRails := [], holdSince := 0, boTimes := [], telItem := 0, tripped := false }

def Fp.reset : Fp :=
  { state := .halted, slotB := false, exhausted := false, newPending := false, updated := false, writing := false,
    restartHeld := false, slots := Vector.replicate 2 ⟨[], [], true⟩, runDigest := [], wdElapsed := 0, restartTimes := [], restarts := 0,
    log := [], logCount := 0, wdInStart := 0, ram := [], ramBad := [] }

/-- The fuses of the part the model resets as: an LNS-6440 with the published floor beat (assumption 1). -/
def Fuses.default : Fuses :=
  { present := BitVec.allOnes 64, part := 0x6440, grade := 0, stepping := 0, serial := 0, floor := 720, floorParity := true,
    svn := 0, signKey := List.replicate 32 0, idSeed := none }

/-- The module in the START state of its first cold start, after power with TEST_MODE = 0 (assumption 1). -/
def Module.reset : Module :=
  { power := .start, straps := ⟨0, true, false⟩, startWarm := false, startTicks := 0, startStep := 1, startDue := none,
    failTicks := none, coldHeld := false, locked := false, starts := 1, floorPs := 720, defaulted := false,
    mgmtOn := true, cert := [], ref100 := true, ref156 := true }

def HostIf.reset : HostIf :=
  { linkUp := false, rate := 0, width := 0, flit := false, atsEn := false, priEn := false, d3hot := false, accMaj := 0,
    reqMaj := 0, msix := [], pba := 0, out := [], atc := [], inval := [], prgi := 0, waiting := [], winHeld := [], tun := [], tunErr := false,
    tunLast := 0, tunHeld := [], cplHeld := [], badAccess := 0, completerAborts := 0 }

def Mgmt.reset : Mgmt :=
  { smbEid := 0, pcieEid := 0, smbSpeed := 0, out := [], malformed := 0, dropped := 0 }

def Tap.reset : Tap := ⟨.idcode, [], false, []⟩

/-- The module at the start of its first cold start: every register at its reset value, nothing in any memory, no unit
running. START_COMPLETE takes it to RUN (R430). -/
def State.reset : State :=
  { time := 0, regs := [], mem := [], memTag := [], crib := [], cribBad := [], loft := [], gran := [], granBad := [],
    barns := Vector.replicate 8 Barn.reset, engines := Vector.replicate 64 Engine.reset,
    flumes := Vector.replicate 32 Flume.reset, memStacks := Vector.replicate 16 Stack.reset,
    ports := Vector.replicate 24 Port.reset, jobs := Vector.replicate 16 Job.reset, coll := [], chanSent := [], chanLanded := [],
    tally := Tally.reset,
    gauge := Gauge.reset, fps := Vector.replicate 4 Fp.reset, fuses := Fuses.default, module := Module.reset,
    host := HostIf.reset, mgmt := Mgmt.reset, tap := Tap.reset, glog := [], glogCount := 0, fswCls := [], fatal := false,
    springBad := [], lsdPending := none, fswTick := [], slicePend := [], sliceRun := [], regionActs := [], granWaits := [],
    pools := [], freeIx := 0, pending := [] }

end Sys2Proof.Machine
end

