-- ==== Sys2Proof/Machine/Ops.lean ====
section
/-! DEFINITION. The named operations every family shares: units and registers by number, the reference clock, MSI-X, the
Gleaner's events, freezing, the end of an admission, the availability epoch. -/

namespace Sys2Proof

/-- Master IDs of R401. -/
def Writer.id : Writer → Nat
  | .host => 0 | .mgmt => 1 | .fp k => 2 + k.val

/-- A page's summary bit (R388). -/
def Page.summaryBit : Page → Nat
  | .engine e => e | .barn b => 64 + b | .granary b => 64 + b
  | .ctl k => 72 + k | .mad k => 72 + k | .mkv k => 72 + k | .rep k => 72 + k
  | .port p => 88 + p | .host => 112 | .mgmt => 112 | .flume _ => 113 | .tally => 114 | .gauge => 115
  | .fp k => 116 + k | .fpLog k => 116 + k | .spring => 120 | .global => 121 | .gleaner => 121 | .unassigned => 121

end Sys2Proof

namespace Sys2Proof.Machine

/-- What a command answers. -/
abbrev Out := Host.Outcome State Fault Refusal

/-- Change element `i` of a vector; no change beyond its end. -/
def modAt {α : Type} {n : Nat} (v : Vector α n) (i : Nat) (f : α → α) : Vector α n :=
  match v[i]? with
  | some x => v.setIfInBounds i (f x)
  | none => v

/-! ## Units by number -/

def State.barn (s : State) (b : Nat) : Barn := s.barns[b]?.getD Barn.reset
def State.setBarn (s : State) (b : Nat) (x : Barn) : State := { s with barns := s.barns.setIfInBounds b x }
def State.modBarn (s : State) (b : Nat) (f : Barn → Barn) : State := s.setBarn b (f (s.barn b))

def State.engine (s : State) (e : Nat) : Engine := s.engines[e]?.getD Engine.reset
def State.setEngine (s : State) (e : Nat) (x : Engine) : State := { s with engines := s.engines.setIfInBounds e x }
def State.modEngine (s : State) (e : Nat) (f : Engine → Engine) : State := s.setEngine e (f (s.engine e))

def State.flume (s : State) (f : Nat) : Flume := s.flumes[f]?.getD Flume.reset
def State.setFlume (s : State) (f : Nat) (x : Flume) : State := { s with flumes := s.flumes.setIfInBounds f x }
def State.modFlume (s : State) (f : Nat) (g : Flume → Flume) : State := s.setFlume f (g (s.flume f))

def State.stack (s : State) (k : Nat) : Stack := s.memStacks[k]?.getD Stack.reset
def State.setStack (s : State) (k : Nat) (x : Stack) : State := { s with memStacks := s.memStacks.setIfInBounds k x }
def State.modStack (s : State) (k : Nat) (f : Stack → Stack) : State := s.setStack k (f (s.stack k))

def State.port (s : State) (p : Nat) : Port := s.ports[p]?.getD Port.reset
def State.setPort (s : State) (p : Nat) (x : Port) : State := { s with ports := s.ports.setIfInBounds p x }
def State.modPort (s : State) (p : Nat) (f : Port → Port) : State := s.setPort p (f (s.port p))

def State.job (s : State) (j : Nat) : Job := s.jobs[j]?.getD Job.reset
def State.setJob (s : State) (j : Nat) (x : Job) : State := { s with jobs := s.jobs.setIfInBounds j x }
def State.modJob (s : State) (j : Nat) (f : Job → Job) : State := s.setJob j (f (s.job j))

def State.fp (s : State) (k : Nat) : Fp := s.fps[k]?.getD Fp.reset
def State.setFp (s : State) (k : Nat) (x : Fp) : State := { s with fps := s.fps.setIfInBounds k x }
def State.modFp (s : State) (k : Nat) (f : Fp → Fp) : State := s.setFp k (f (s.fp k))

/-! ## Registers held as words -/

/-- The stored word of a register; an unlisted one holds its reset value. -/
def State.reg (s : State) (a : Nat) : Word := CMap.get resetVal s.regs a
/-- Store a register's word. -/
def State.setReg (s : State) (a : Nat) (v : Word) : State := { s with regs := CMap.set resetVal s.regs a v }
/-- Bits [hi:lo] of a register's stored word. -/
def State.fld (s : State) (a hi lo : Nat) : Nat := (s.reg a).field hi lo
/-- Replace bits [hi:lo] of a register's stored word. -/
def State.setFld (s : State) (a hi lo v : Nat) : State := s.setReg a ((s.reg a).setBits hi lo v)
/-- Is bit `i` of the stored word 1? -/
def State.regBit (s : State) (a i : Nat) : Bool := bit (s.reg a).toNat i
/-- Saturating count up of the field [hi:lo]. -/
def State.incFld (s : State) (a hi lo : Nat) : State := s.setFld a hi lo (satInc (hi - lo + 1) (s.fld a hi lo))
/-- Saturating addition to the field [hi:lo]. -/
def State.addFld (s : State) (a hi lo k : Nat) : State := s.setFld a hi lo (satAdd (hi - lo + 1) (s.fld a hi lo) k)
/-- The address a LO/HI register pair holds. -/
def State.pair (s : State) (lo hi : Nat) : Nat := (s.reg lo).toNat + 2 ^ 32 * (s.reg hi).toNat

/-! ## Free values -/

/-- A value the spec leaves open, and the state that will not use it again (assumption 3). -/
def State.fresh (s : State) : Word × State := (Config.free s.freeIx, { s with freeIx := s.freeIx + 1 })

/-! ## The reference clock (R49): one tick is 6.4 ns, 64 units of 10⁻¹⁰ s -/

/-- Have `ticks` ticks covered `us` µs? -/
def reachedUs (ticks us : Nat) : Bool := decide (us * 10000 ≤ ticks * 64)
/-- Have `ticks` ticks covered `ms` ms? -/
def reachedMs (ticks ms : Nat) : Bool := reachedUs ticks (ms * 1000)
/-- Whole µs in `ticks` ticks. -/
def usOf (ticks : Nat) : Nat := ticks * 64 / 10000
/-- Does an event of tick `t` lie within a window of `us` µs at tick `now` (R483)? A window of 0 holds none. -/
def inWindow (now us t : Nat) : Bool := decide (us ≠ 0) && decide ((now - t) * 64 ≤ us * 10000)
/-- The events of a list that lie within the window now. -/
def windowed (now us : Nat) (ts : List Nat) : List Nat := ts.filter (inWindow now us)

/-! ## Masters and pages -/

abbrev Master.host : Nat := 0x00
abbrev Master.mgmt : Nat := 0x01
abbrev Master.none : Nat := 0x07
def Master.fp (k : Nat) : Nat := 2 + k
def Master.barn (b : Nat) : Nat := 8 + b
def Master.flume (f : Nat) : Nat := 0x10 + f
def Master.mill (s : Nat) : Nat := 0x30 + s
/-- A Weir port as it lands or reads rows: R401 gives it no master ID, and a report shows the no-master code for it. -/
def Master.port (p : Nat) : Nat := 0x40 + p

/-- The master ID that a report shows (R402). -/
def masterCode (m : Nat) : Nat := if m < 0x40 then m else Master.none

/-- The page that holds a master's FREEZE (R403); `unassigned` for the codes of no master. -/
def masterPage (m : Nat) : Page :=
  if m = 0 then .host else if m = 1 then .mgmt
  else if m < 6 then .fp (m - 2)
  else if m < 8 then .unassigned
  else if m < 0x10 then .barn (m - 8)
  else if m < 0x30 then .flume (m - 0x10)
  else if m < 0x40 then .mkv (m - 0x30)
  else .unassigned

/-- The master whose FREEZE a page holds. -/
def pageMaster : Page → Option Nat
  | .host => some 0 | .mgmt => some 1 | .fp k => some (2 + k) | .barn b => some (8 + b) | .flume f => some (0x10 + f)
  | .mkv k => some (0x30 + k) | _ => none

/-- Does a master's FREEZE hold FROZEN = 1? -/
def State.frozen (s : State) (m : Nat) : Bool := s.regBit ((masterPage m).base + Reg.header.FREEZE) 0

/-- Is engine position `e` present (R3)? -/
def State.present (s : State) (e : Nat) : Bool := bit s.fuses.present.toNat e

/-- ENGINE_EN of a barn (R196, R213): present, not retired, not taken off line. -/
def State.enabled (s : State) (e : Nat) : Bool :=
  s.present e && !(s.engine e).retired && !(s.engine e).offApplied

/-- The enabled engines of barn `b`, in ascending position. -/
def State.barnEngines (s : State) (b : Nat) : List Nat :=
  ((List.range 8).map (fun i => 8 * b + i)).filter (fun e => s.enabled e)

/-! ## MSI-X (R443, R444) -/

/-- After reset every vector is masked, as PCIe has it. -/
def msixDefault (k : Nat) : BitVec 32 := if k % 4 = 3 then 1 else 0

/-- Vector control bit 0 of vector `v`. -/
def HostIf.msixMasked (h : HostIf) (v : Nat) : Bool := bit (CMap.get msixDefault h.msix (4 * v + 3)).toNat 0

/-- One event on MSI-X vector `v`: a message, or a pending bit where the vector is masked (R444), the module stands in
D3hot (R440), or the link is down (assumption 20). -/
def State.msix (s : State) (v : Nat) : State :=
  if s.host.msixMasked v || s.host.d3hot || !s.host.linkUp then
    { s with host := { s.host with pba := s.host.pba ||| BitVec.ofNat 64 (2 ^ v) } }
  else { s with host := { s.host with out := s.host.out ++ [.msix v] } }

/-- The message of a vector whose pending bit is set, if nothing keeps it. -/
def State.sendPending (s : State) (v : Nat) : State :=
  if bit s.host.pba.toNat v && !s.host.msixMasked v && !s.host.d3hot && s.host.linkUp then
    { s with host := { s.host with pba := s.host.pba &&& ~~~ (BitVec.ofNat 64 (2 ^ v)), out := s.host.out ++ [.msix v] } }
  else s

/-- Every message that was held. -/
def State.sendAllPending (s : State) : State := (List.range 64).foldl (fun s v => s.sendPending v) s

/-- The PCIe link goes down: outstanding window accesses of the host are dropped, the tunnelled ones among them (R439). A CPL that still
comes for one finds no tag (assumption 63). -/
def State.pcieDown (s : State) : State :=
  let ctrl (x : TunItem) : Bool := match x with
    | .ctrl _ => true
    | .req _ => false
  let base (x : WindowItem) : Bool := match x with
    | .base _ => true
    | .access _ _ => false
  { s with host := { s.host with
      linkUp := false, waiting := s.host.waiting.filter (fun x => x.reply.isSome), winHeld := s.host.winHeld.filter base
      tun := [], tunHeld := s.host.tunHeld.filter ctrl } }

/-! ## The Gleaner (R388 to R393) -/

/-- The cause codes of R398. -/
abbrev Cause.DEADLINE_SHORT : Nat := 0x01
abbrev Cause.EPOCH_STALE : Nat := 0x02
abbrev Cause.UNIT_ABSENT : Nat := 0x03
abbrev Cause.BIN_CONFLICT : Nat := 0x04
abbrev Cause.REARM_BUSY : Nat := 0x05
abbrev Cause.GRANARY_LIVE : Nat := 0x06
abbrev Cause.TALLY_CONFLICT : Nat := 0x07
abbrev Cause.POLICY_BELOW_FLOOR : Nat := 0x08
abbrev Cause.NO_FALLOW : Nat := 0x09
abbrev Cause.PAGE_FAULT : Nat := 0x0A
abbrev Cause.CHECKSUM_ROWCOL : Nat := 0x0B
abbrev Cause.REDUCE_CHECKSUM : Nat := 0x0C
abbrev Cause.NONFINITE : Nat := 0x0D
abbrev Cause.STACK_HOT : Nat := 0x0E
abbrev Cause.SUPPLY_WARN : Nat := 0x0F
abbrev Cause.WATCHDOG : Nat := 0x10
abbrev Cause.SIGNATURE : Nat := 0x11
abbrev Cause.LINK_RETIRE : Nat := 0x12
abbrev Cause.MEM_UNCORRECTABLE : Nat := 0x13
abbrev Cause.HOST_ABORT : Nat := 0x14
abbrev Cause.BIN_INVALID : Nat := 0x15
abbrev Cause.FORMAT : Nat := 0x16
abbrev Cause.ROSTER : Nat := 0x17
abbrev Cause.STATE_DISAGREE : Nat := 0x18
abbrev Cause.DEADLINE_MISS : Nat := 0x19
abbrev Cause.REDUCE_PROMOTED : Nat := 0x1A

/-- The classes of R395. -/
abbrev Cls.corrected : Nat := 0
abbrev Cls.transient : Nat := 1
abbrev Cls.contained : Nat := 2
abbrev Cls.retiring : Nat := 3
abbrev Cls.fatal : Nat := 4

/-- An event: one report of one cause by one block (R389). -/
structure Event where
  cause : Nat
  cls : Nat
  master : Nat := Master.none
  detail : Nat := 0
  inj : Bool := false

/-- ERR_STATUS after an event (R390): the fields take the latest event of the highest class; OVERFLOW where one was held. -/
def errRecord (w : Word) (e : Event) : Word :=
  let fields := BitVec.ofNat 32 (e.cause % 256 + 2 ^ 8 * (e.cls % 8) + 2 ^ 11 * (e.master % 64))
  if w.field 7 0 = 0 then fields
  else if w.field 10 8 ≤ e.cls then fields ||| 0x80000000#32
  else w ||| 0x80000000#32

/-- Word 0 of a log entry (R392). -/
def Event.word0 (e : Event) (src : Nat) : Word :=
  BitVec.ofNat 32 (e.cause % 256 + 2 ^ 8 * (e.cls % 8) + 2 ^ 11 * (e.master % 64) + 2 ^ 17 * (src % 128) + 2 ^ 24 * b2n e.inj)

/-- The PLDM event of a Retiring or Fatal event, where a receiver is configured (R452); the PCIe binding lives while the link is up
(R450). -/
def State.platformEvent (s : State) (w0 : Word) : State :=
  if s.fld Reg.mgmt.MGMT_EVENT 7 0 = 0 ∨ (s.regBit Reg.mgmt.MGMT_EVENT 8 ∧ !s.host.linkUp) then s
  else { s with mgmt := { s.mgmt with out := s.mgmt.out ++ [.platformEvent w0] } }

/-- One log entry, four words, at place `n` of the ring. -/
def logPut (l : CMap 32) (n : Nat) (w : Nat → Word) : CMap 32 :=
  let k := 4 * (n % 256)
  (((l.wr k (w 0)).wr (k + 1) (w 1)).wr (k + 2) (w 2)).wr (k + 3) (w 3)

/-- Does the entry at place `n` belong to the tick `time` with a summary bit above `src`? -/
def logAfter (l : CMap 32) (time src n : Nat) : Bool :=
  let k := 4 * (n % 256)
  decide (l.rd (k + 2) = BitVec.ofNat 32 time) && decide (l.rd (k + 3) = BitVec.ofNat 32 (time / 2 ^ 32))
    && decide (src < (l.rd k).toNat / 2 ^ 17 % 128)

/-- Entries of this tick with a higher summary bit move up by one place (R389): the log then, and the place left free. -/
def logSlide (time src : Nat) : Nat → CMap 32 → Nat → CMap 32 × Nat
  | 0, l, n => (l, n)
  | fuel + 1, l, n =>
    if 0 < n ∧ logAfter l time src (n - 1) then
      logSlide time src fuel (logPut l n (fun i => l.rd (4 * ((n - 1) % 256) + i))) (n - 1)
    else (l, n)

/-- The log with one entry more (R392); the entries of one tick stand in ascending summary bit (R389). -/
def State.logEvent (s : State) (src : Nat) (e : Event) : State :=
  let q := logSlide s.time src 255 s.glog s.glogCount
  let entry (i : Nat) : Word := match i with
    | 0 => e.word0 src
    | 1 => BitVec.ofNat 32 e.detail
    | 2 => BitVec.ofNat 32 s.time
    | _ => BitVec.ofNat 32 (s.time / 2 ^ 32)
  { s with glog := logPut q.1 q.2 entry, glogCount := s.glogCount + 1 }

/-- What the Gleaner does with an event that reaches it at summary bit `src` (R389, R392, R393, R452). -/
def State.glean (s : State) (src : Nat) (e : Event) : State :=
  let fsw := Reg.gleaner.FSW0 + 4 * (src / 32)
  let old : BitVec 8 := if bit (s.reg fsw).toNat (src % 32) then s.fswCls.rd src else 0
  let s := s.setReg fsw (s.reg fsw ||| BitVec.ofNat 32 (2 ^ (src % 32)))
  let s := { s with
    fswCls := s.fswCls.wr src (old ||| BitVec.ofNat 8 (2 ^ e.cls))
    fswTick := s.fswTick.wr src (s.fswTick.rd src ||| BitVec.ofNat 8 (2 ^ e.cls)) }
  let s := s.incFld (Reg.gleaner.CLASS_CNT e.cls) 31 0
  let s := s.logEvent src e
  let s := if s.regBit Reg.gleaner.IRQ_MASK e.cls then s else s.msix (32 + e.cls)
  if e.cls < Cls.retiring then s else s.platformEvent (e.word0 src)

/-- Does the block's ERR_MASK keep this class from the Gleaner (R391)? Classes 3 and 4 are never masked. -/
def State.errMasked (s : State) (pg : Page) (cls : Nat) : Bool :=
  decide (cls < 3) && s.regBit (pg.base + Reg.header.ERR_MASK) cls

/-- The detail of an event: the Flume's number where a Flume raises it (R392). -/
def Event.ofPage (e : Event) : Page → Event
  | .flume f => { e with detail := f }
  | _ => e

/-- A block raises an event at summary bit `src`: ERR_STATUS of its own page, then the Gleaner unless masked. -/
def State.reportAt (s : State) (pg : Page) (src : Nat) (e : Event) : State :=
  let e := e.ofPage pg
  let a := pg.base + Reg.header.ERR_STATUS
  let s := s.setReg a (errRecord (s.reg a) e)
  if s.errMasked pg e.cls then s else s.glean src e

/-- A block raises an event at its own summary bit. -/
def State.report (s : State) (pg : Page) (e : Event) : State := s.reportAt pg pg.summaryBit e

/-! ## Slices that run -/

/-- Does a slice run that meets the test? -/
def State.slicing (s : State) (f : SliceReq → Bool) : Bool := s.sliceRun.any (fun x => f x.req)

/-- Does a slice test a channel of stack `k`, or its Mill? -/
def State.sliceInChannel (s : State) (k : Nat) (t : Tier) : Bool :=
  s.slicing (fun r => decide (bits r.inst 3 0 = k) && (decide (r.code = 0xA) || decide (r.code = (match t with
    | .pond => 0x7
    | .lake => 0x8))))

/-- An act that waits for a slice. -/
def State.holdAct (s : State) (x : RegionAct) : State := { s with regionActs := s.regionActs ++ [x] }

/-- A channel whose removal waited leaves service, after the slice that tests it (R213, R409). -/
def State.dropChannel (s : State) (k : Nat) : State :=
  let x := s.stack k
  let pond := x.pondOffline && !x.pondOffApplied
  let lake := x.lakeOffline && !x.lakeOffApplied
  let heldP := pond && s.sliceInChannel k .pond
  let heldL := lake && s.sliceInChannel k .lake
  let s := s.modStack k (fun x => { x with
    pondOffApplied := x.pondOffApplied || (pond && !heldP)
    lakeOffApplied := x.lakeOffApplied || (lake && !heldL) })
  let s := if heldP then s.holdAct (.remove 1 k) else s
  if heldL then s.holdAct (.remove 2 k) else s

/-! ## The end of an admission (R225) -/

/-- Every span stops; VERDICT 3 with the reason; AT_RISK ends with the admission (R223, R225); channels leave service whose removal
waited while it was live (R213). -/
def State.endAdmission (s : State) (reason : Nat) : State :=
  if s.tally.live then
    let s := { s with tally := { s.tally with live := false, recs := [],
                                              spans := Vector.replicate 8 Span.reset } }
    let a := Reg.tally.ADM_STATUS
    let s := ((s.setFld a 1 0 3).setFld a 2 2 0).setFld a 6 4 reason
    (List.range 16).foldl (fun s k => s.dropChannel k) s
  else s

/-- AT_RISK with its first cause (R223): 1 T2, 2 brownout hold, 3 over floor, 4 power-limit pacing. -/
def State.atRisk (s : State) (cause : Nat) : State :=
  if s.tally.live && !s.regBit Reg.tally.ADM_STATUS 2 then
    (s.setFld Reg.tally.ADM_STATUS 2 2 1).setFld Reg.tally.ADM_RISK 3 0 cause
  else s

/-- Is a deadline live (R367)? -/
def State.deadlineLive (s : State) : Bool := s.tally.live && s.tally.recs.any (fun r => decide (r.deadline ≠ 0))

/-! ## Freezing (R400 to R404) -/

/-- Does the master run a record of the live admission? Records name barns (R214). -/
def State.runsRecord (s : State) (m : Nat) : Bool :=
  decide (8 ≤ m) && decide (m < 16) && s.tally.live && (s.tally.spans[m - 8]?.getD Span.reset).live

/-- An open transaction of a master that freezes rolls back (R400, R469). -/
def State.rollbackOf (s : State) (m : Nat) : State :=
  if s.tally.state = .opened ∧ s.tally.owner = m then
    { s with tally := { s.tally with state := .idle, owner := Master.none, shadows := [], result := 4 } }
  else s

/-- A master freezes with a cause (R400). A frozen master keeps its first cause and count (R404). -/
def State.freeze (s : State) (m cause : Nat) : State :=
  if s.frozen m then s
  else
    let a := (masterPage m).base + Reg.header.FREEZE
    let s := ((s.setFld a 0 0 1).setFld a 15 8 cause).incFld a 31 16
    let s := s.rollbackOf m
    if s.runsRecord m then s.endAdmission 2 else s

/-- A write refused at the write itself (R482): the page written reports it with the writer as MASTER. -/
def State.refuseNoFreeze (s : State) (pg : Page) (w : Writer) (cause : Nat) (detail : Nat := 0) : State :=
  s.report pg { cause := cause, cls := Cls.contained, master := w.id, detail := detail }

/-- A refused write whose writer freezes (R482, R234). -/
def State.refuse (s : State) (pg : Page) (w : Writer) (cause : Nat) (detail : Nat := 0) : State :=
  (s.refuseNoFreeze pg w cause detail).freeze w.id cause

/-! ## Safe points (R473) -/

/-- Does the transaction shadow a register whose page meets the test? -/
def State.touches (s : State) (f : Page → Bool) : Bool := s.tally.shadows.any (fun x => f (pageOf x.addr))

/-- Barn `b`'s pages: its own and its engines' (R473). -/
def barnPages (b : Nat) : Page → Bool
  | .barn k => decide (k = b)
  | .engine e => decide (e / 8 = b)
  | _ => false

/-- Is barn `b` touched by the transaction? -/
def State.touchesBarn (s : State) (b : Nat) : Bool := s.touches (barnPages b)
/-- Is Flume `f` touched? -/
def State.touchesFlume (s : State) (f : Nat) : Bool :=
  s.touches (fun | .flume k => decide (k = f) | _ => false)

/-- Does a barn stand at its safe point: IDLE, held at a main-bank boundary, or at the WAIT of R473? -/
def Barn.atSafePoint (x : Barn) : Bool :=
  decide (x.phase = .idle)
    || (match x.boundary with
        | some y => y.held
        | none => false)
    || (x.waiting.isSome && decide (x.issued = 0) && x.ccSave.isNone)

/-- Does a Flume stand at its safe point: IDLE, ABORTED, or held at a descriptor boundary, by a commit or by R484? -/
def Flume.atSafePoint (x : Flume) : Bool :=
  decide (x.state = .idle) || decide (x.state = .aborted) || x.boundaryHeld || x.heldNext

/-- Can no step be under way (R123, R473; assumption 74): every job that holds a collective record of the applied table stands in step
abort, or, where none holds one, a step abort stands, or no condition of R351 names a block, so that no step boundary runs? -/
def State.jobsAborted (s : State) : Bool :=
  if s.fld Reg.global.COLL_CTRL 9 0 = 0 then
    s.barns.toList.any (fun x => x.stepAborted)
      || (decide (s.fld Reg.global.STEP_SIG 27 20 = 0) && (List.range 16).all (fun k => decide (s.fld (Reg.mkv.MK_CTRL k) 10 0 = 0)))
  else (List.range (s.fld Reg.global.COLL_CTRL 9 0)).all (fun i =>
    (s.job (bits (s.tally.colls[i]?.getD 0).toNat 6 3)).aborted)

/-- Pages whose safe point is the step boundary, with the last column of R473. -/
def State.waitsForStep (s : State) : Page → Bool
  | .gauge => s.tally.live
  | .spring | .mkv _ | .global | .port _ => s.tally.live && !s.jobsAborted
  | _ => false

/-- Bit `b` of TX_WAIT [7:0]: barn `b` touched and not at its safe point. -/
def State.txWaitBarns (s : State) : Nat :=
  (List.range 8).foldl (fun n b => n + 2 ^ b * b2n (s.touchesBarn b && !(s.barn b).atSafePoint)) 0
/-- TX_WAIT_FL. -/
def State.txWaitFlumes (s : State) : Nat :=
  (List.range 32).foldl (fun n f => n + 2 ^ f * b2n (s.touchesFlume f && !(s.flume f).atSafePoint)) 0
/-- Bit 8 of TX_WAIT: the step boundary not yet reached. -/
def State.txWaitStep (s : State) : Bool := s.touches s.waitsForStep && !s.tally.stepHeld

/-- The transaction's wait fields as they stand, kept when a commit ends (R477). -/
def State.keepWaits (s : State) : State :=
  { s with tally := { s.tally with waitBarns := s.txWaitBarns, waitStep := s.txWaitStep, waitFlumes := s.txWaitFlumes } }

/-! ## The commit's end and the availability epoch -/

/-- A commit ends without applying (R469): shadows discarded, held blocks released, FAILED counted. -/
def State.failCommit (s : State) (result cause : Nat) : State :=
  let s := s.keepWaits
  let t := s.tally
  let s := { s with tally := { t with state := .idle, owner := Master.none, shadows := [],
                                      result := result, lastCause := if result = 3 then t.lastCause else cause,
                                      failed := satInc 16 t.failed, nextRecs := [] } }
  { s with
    barns := s.barns.map (fun b => { b with boundary := b.boundary.map (fun x => { x with held := false }) })
    flumes := s.flumes.map (fun f => { f with boundaryHeld := false }) }

/-- A refused commit (R472): the Tally reports the failing check's cause, MASTER naming the owner. -/
def State.refuseCommit (s : State) (cause : Nat) (inj : Bool := false) : State :=
  let m := s.tally.owner
  (s.failCommit 2 cause).report .tally { cause := cause, cls := Cls.contained, master := m, inj := inj }

/-- What a refused admission shows (R220, R238): VERDICT 2 and the first failing record; where no record is what fails, FAIL_REC is a
free value (assumption 36). A deadline check shows its shortfall. -/
def State.showRefusal (s : State) (rec margin : Option Nat) : State :=
  let q : Nat × State := match rec with
    | some i => (i, s)
    | none => let q := s.fresh; (q.1.toNat, q.2)
  let s := (q.2.setFld Reg.tally.ADM_STATUS 1 0 2).setFld Reg.tally.ADM_STATUS 17 8 q.1
  match margin with
  | some x => s.setReg Reg.tally.ADM_MARGIN (BitVec.ofNat 32 x)
  | none => s

/-- AVAIL_EPOCH advances by 1, wrapping (R209); a commit in progress is refused with EPOCH_STALE (R469), and with it the admission that
it carries (R238). -/
def State.advanceEpoch (s : State) : State :=
  let s := s.setFld Reg.global.AVAIL_EPOCH 15 0 (s.fld Reg.global.AVAIL_EPOCH 15 0 + 1)
  let adm := s.tally.shadows.any (fun x => decide (x.addr = Reg.tally.ADM_CTRL) && decide (x.val.field 10 0 ≠ 0))
  if s.tally.state = .committing then
    let s := s.refuseCommit Cause.EPOCH_STALE
    if adm then s.showRefusal none none else s
  else s

/-- A mismatch of epochs at a block's boundary (R211). -/
def State.epochStale (s : State) (pg : Page) (m : Nat) : State :=
  ((s.report pg { cause := Cause.EPOCH_STALE, cls := Cls.contained, master := m }).report .tally
    { cause := Cause.STATE_DISAGREE, cls := Cls.corrected }).endAdmission 1

/-- Does a block's EPOCH differ from AVAIL_EPOCH (R210)? -/
def State.epochDiffers (s : State) (pg : Page) : Bool :=
  decide (s.fld (pg.base + Reg.header.EPOCH) 15 0 ≠ s.fld Reg.global.AVAIL_EPOCH 15 0)

/-- Do the units of the module run: power state RUN, or HOLD (R382)? -/
def State.up (s : State) : Bool := decide (s.module.power = .run) || decide (s.module.power = .hold)

/-- Is a start in progress? None goes on in the Fatal state (R397). -/
def State.starting (s : State) : Bool := decide (s.module.power = .start) && s.module.failTicks.isNone && !s.fatal

/-- Does a rail stand below its warning level: is brownout hold in force (R379)? -/
def State.inHold (s : State) : Bool := !s.gauge.holdRails.isEmpty

/-! ## A Flume's slots as they read (R279) -/

/-- The descriptor that an ARM GO has put on its way, to a slot it has reserved. -/
def Flume.armFetch (x : Flume) : Option Nat :=
  match x.fetch with
  | some ⟨a, .arm _⟩ => some a
  | _ => none

/-- Address of the next descriptor: in its slot, on its way there, or as an abort recorded it. -/
def Flume.nextAddr (x : Flume) : Option Nat :=
  match x.nxt, x.fetch with
  | some n, _ => some n.1
  | none, some ⟨a, .link⟩ => some a
  | none, some ⟨a, .arm _⟩ => if x.state = .idle then none else some a
  | none, _ => x.nextAt

/-! ## Weir symbols -/

/-- Queue a control symbol on a port whose link is up. -/
def State.sendSym (s : State) (p : Nat) (v : BitVec 64) : State :=
  if (s.port p).link = .up then s.modPort p (fun x => { x with txSyms := x.txSyms ++ [v] }) else s

end Sys2Proof.Machine
end

