-- ==== Sys2Proof/Machine/Operands.lean ====
section
/-! DEFINITION. The forms of what the block reads from its memories: Granary instruction words and descriptors (chapter 6),
generator runs and tile coordinates. Every field stands at the bits the spec gives it. -/

namespace Sys2Proof.Machine

/-! ## Granary words (R155 to R158) -/

/-- Granary key of word `w` of bank `k` (0, 1 main, 2 catch-crop) of barn `b`. -/
def granKey (b k w : Nat) : Nat := b * 32768 + k * 8192 + w

/-- Words of a bank (R187). -/
def bankWords (k : Nat) : Nat := if k = 2 then 4096 else 6144

/-- Bank and bank offset of a load window offset (R188). -/
def granBank (o : Nat) : Nat × Nat := if o < 0x18000 then (0, o) else if o < 0x30000 then (1, o - 0x18000) else (2, o - 0x30000)

/-- Does the stored code of a half of the Granary word fail (R187, R190)? -/
def State.granWordBad (s : State) (k : Nat) : Bool := decide (s.granBad.rd (2 * k) ≠ 0) || decide (s.granBad.rd (2 * k + 1) ≠ 0)

/-- One byte of a Granary word, its 64-bit half stored with check bits that match, or inverted ones (R190; assumption 31). -/
def State.granPut (s : State) (a : Nat) (v : Byte) : State :=
  match pageOf a with
  | .granary b =>
    let q := granBank (a - (Page.granary b).base)
    let k := granKey b q.1 (q.2 / 16)
    let lo := 8 * (q.2 % 16)
    let old := (s.gran.rd k).toNat
    let new := old - bits old (lo + 7) lo * 2 ^ lo + v.toNat * 2 ^ lo
    let bad := s.regBit (Reg.barn.page b + Reg.header.ERR_INJECT) 0
    { s with
      gran := s.gran.wr k (BitVec.ofNat 128 new)
      granBad := s.granBad.wr (2 * k + q.2 % 16 / 8) (if bad then 1 else 0) }
  | _ => s

/-- A run of bytes lands in the load windows, in ascending address. -/
def State.granPuts (s : State) (a : Nat) : List Byte → State
  | [] => s
  | v :: vs => State.granPuts (s.granPut a v) (a + 1) vs

/-- Barn and bank of a load window offset. -/
def granSite (a : Nat) : Option (Nat × Nat) :=
  match pageOf a with
  | .granary b => some (b, (granBank (a - (Page.granary b).base)).1)
  | _ => none

/-- Does an instruction word carry VER 1 and an opcode that is not reserved (R155)? -/
def wordVer (w : Nat) : Nat := bits w 127 124
def wordOp (w : Nat) : Nat := bits w 123 118

/-- Opcodes of R156. -/
abbrev Opc.NOP : Nat := 0x00
abbrev Opc.END : Nat := 0x01
abbrev Opc.YIELD : Nat := 0x02
abbrev Opc.FALLOW : Nat := 0x03
abbrev Opc.LOOP : Nat := 0x04
abbrev Opc.ENDLOOP : Nat := 0x05
abbrev Opc.WAIT : Nat := 0x06
abbrev Opc.SIGNAL : Nat := 0x07
abbrev Opc.OPX : Nat := 0x08
abbrev Opc.OPXW : Nat := 0x09
abbrev Opc.SWAPBIN : Nat := 0x0A
abbrev Opc.BINRD : Nat := 0x0B
abbrev Opc.BINWR : Nat := 0x0C
abbrev Opc.WCFG : Nat := 0x0D
abbrev Opc.DRAIN : Nat := 0x0E
abbrev Opc.FILL : Nat := 0x0F
abbrev Opc.SPILL : Nat := 0x10
abbrev Opc.SENDW : Nat := 0x11
abbrev Opc.MILLOP : Nat := 0x12
abbrev Opc.DESC : Nat := 0x3F

/-- The index that names no descriptor (R157). -/
abbrev noDesc : Nat := 0x7FF

/-- A refusal at issue, or an uncorrectable Granary word (R155, R190). -/
inductive IssueErr where
  | format
  | uncorrectable
deriving DecidableEq, Repr

/-- The payload of descriptor `d` of a bank (R157): its four words must lie in the bank and be descriptor words. -/
def descPayload (s : State) (b k d : Nat) : Except IssueErr Nat :=
  if bankWords k < 4 * d + 4 then .error .format
  else
    let ks := (List.range 4).map (fun i => granKey b k (4 * d + i))
    if ks.any s.granWordBad then .error .uncorrectable
    else
      let ws := ks.map (fun a => (s.gran.rd a).toNat)
      if ws.all (fun w => decide (wordVer w = 1) && decide (wordOp w = Opc.DESC)) then
        .ok (packNat118 ws)
      else .error .format
where
  /-- Four payloads of 118 bits, the first lowest. -/
  packNat118 : List Nat → Nat
    | [] => 0
    | w :: ws => bits w 117 0 + 2 ^ 118 * packNat118 ws

/-! ## Address-generator descriptors (R159 to R161) -/

/-- Level `l` of an address-generator payload. -/
def agLevel (P l : Nat) : AgLevel :=
  let v := P / 2 ^ (72 + 65 * l)
  { outer := bit v 0, cnt := bits v 20 1 + 1, depth := bits v 3 1, stride := sext 44 (bits v 64 21) }

/-- Bytes of a space (R161). -/
def spaceBytes (sp : Nat) : Nat := if sp = 0 then 2 ^ 22 else if sp = 1 then 2 ^ 25 else 2 ^ 42

/-- Does a level hold only values the spec defines? -/
def agLevelOk (P l : Nat) : Bool :=
  let v := P / 2 ^ (72 + 65 * l)
  !bit v 0 || (decide (1 ≤ bits v 3 1) && decide (bits v 3 1 ≤ 6) && decide (bits v 20 4 = 0))

/-- Decode an address-generator payload; none for a value that is refused when the arming instruction issues. -/
def agDecode (P : Nat) : Option AgDesc :=
  let d : AgDesc :=
    { agn := bits P 4 2, dir := bits P 6 5, qsel := bits P 10 7, space := bits P 12 11, len := bits P 23 13 + 1,
      base := bits P 65 24, ring := bits P 70 66, levels := (List.range 6).map (agLevel P) }
  if decide (bits P 1 0 = 0) && decide (d.dir ≠ 3) && decide (d.space ≠ 3) && (decide (d.dir ≠ 1) || decide (d.qsel < 12))
      && (decide (d.ring = 0) || (decide (7 ≤ d.ring) && decide (d.ring ≤ 25) && decide (2 ^ d.ring ≤ spaceBytes d.space)))
      && (List.range 6).all (agLevelOk P)
  then some d else none

/-- Runs a descriptor produces: the product of its inner counts (R160). -/
def AgDesc.total (d : AgDesc) : Nat := d.levels.foldl (fun n l => if l.outer then n else n * l.cnt) 1

/-- The offset of run `idx` (R160): outer levels by the loop counters, inner levels with level 0 fastest. -/
def runOffset (ctrs : List Nat) : List AgLevel → Nat → Int
  | [], _ => 0
  | l :: ls, idx =>
    if l.outer then l.stride * (ctrs.getD (l.depth - 1) 0 : Nat) + runOffset ctrs ls idx
    else (idx % l.cnt : Nat) * l.stride + runOffset ctrs ls (idx / l.cnt)

/-- The address of run `idx` of an arming, before the checks of R161. -/
def Arming.addr (a : Arming) (agBase idx : Nat) : Int :=
  let off := runOffset a.ctrs a.d.levels idx
  let off := if a.d.ring = 0 then off else off % (2 ^ a.d.ring : Nat)
  (agBase : Int) + a.d.base + off

/-- Does a run meet R161? -/
def Arming.runOk (a : Arming) (addr : Int) : Bool :=
  decide (0 ≤ addr) && decide (addr % 4 = 0) && decide (addr + a.d.len ≤ spaceBytes a.d.space)

/-- The descriptors an ARM field names, in order (R157, R162). `0x7FF` names none. -/
def armList (s : State) (b k arm : Nat) : Except IssueErr (List AgDesc) :=
  if arm = noDesc then .ok []
  else
    match descPayload s b k arm with
    | .error e => .error e
    | .ok P =>
      if bits P 1 0 = 0 then
        match agDecode P with
        | some d => .ok [d]
        | none => .error .format
      else if bits P 1 0 = 1 then
        group ((List.range (bits P 4 2 + 1)).map (fun i => bits P (15 + 11 * i) (5 + 11 * i))) []
      else .error .format
where
  /-- The entries of a group: kind 0, with different generators. -/
  group : List Nat → List AgDesc → Except IssueErr (List AgDesc)
    | [], acc => .ok acc
    | e :: es, acc =>
      match descPayload s b k e with
      | .error x => .error x
      | .ok P =>
        match agDecode P with
        | none => .error .format
        | some d => if acc.any (fun x => decide (x.agn = d.agn)) then .error .format else group es (acc ++ [d])

/-! ## Tile descriptors (R163, R164) -/

/-- What a tile descriptor adds to an engine's origins: row, column, reduction index, micro-batch, slot. -/
structure TileOff where
  row : Int
  col : Int
  k : Int
  mb : Int
  slot : Int
deriving DecidableEq, Repr

/-- Level terms of R164 at loop counters `c`, first level first. -/
def tileLevels (P : Nat) (c : List Nat) : Nat → TileOff
  | 0 => ⟨0, 0, 0, 0, 0⟩
  | l + 1 =>
    let r := tileLevels P c l
    let v := P / 2 ^ (88 + 61 * l)
    let n : Int := (c.getD l 0 : Nat)
    ⟨r.row + sext 14 (bits v 13 0) * n, r.col + sext 14 (bits v 27 14) * n, r.k + sext 21 (bits v 48 28) * n,
     r.mb + sext 6 (bits v 54 49) * n, r.slot + sext 6 (bits v 60 55) * n⟩

/-- The offsets of a TILE field: 0x7FF gives none (R164). -/
def tileOffsets (s : State) (b k tile : Nat) (c : List Nat) : Except IssueErr TileOff :=
  if tile = noDesc then .ok ⟨0, 0, 0, 0, 0⟩
  else
    match descPayload s b k tile with
    | .error e => .error e
    | .ok P =>
      if bits P 1 0 = 2 then
        let r := tileLevels P c 6
        .ok ⟨r.row + (bits P 21 2 : Nat), r.col + (bits P 41 22 : Nat), r.k + (bits P 65 42 : Nat),
             r.mb + (bits P 77 66 : Nat), r.slot + (bits P 83 78 : Nat)⟩
      else .error .format

/-- A quantity of R164 modulo 2^n. -/
def modW (n : Nat) (x : Int) : Nat := (x % (2 ^ n : Nat)).toNat

/-- Row, column, reduction and slot coordinates of an operation in engine `e` (R164). -/
structure Coords where
  row0 : Nat
  col0 : Nat
  k0 : Nat
  mb : Nat
  slot : Nat
deriving DecidableEq, Repr

def coordsOf (s : State) (e mbatch : Nat) (t : TileOff) : Coords :=
  { row0 := modW 20 (t.row + (s.fld (Reg.engine.ROW_ORG e) 19 0 : Nat)),
    col0 := modW 20 (t.col + (s.fld (Reg.engine.COL_ORG e) 19 0 : Nat)),
    k0 := modW 24 (t.k + (s.fld (Reg.engine.K_ORG e) 23 0 : Nat)),
    mb := modW 12 (t.mb + (mbatch : Int)),
    slot := modW 6 (t.slot + (s.fld (Reg.engine.SLOT_ORG e) 5 0 : Nat)) }

/-- Loft address of slot `n` at engine position `p` (R164). -/
def slotAddr (p n : Nat) : Nat := p * 4194304 + n * 73728

/-! ## Instruction fields (R170 to R183) -/

/-- OPX and OPXW (R170). -/
structure OpxF where
  form : Nat
  colq : Nat
  rowq : Nat
  colTurn : Bool
  rowTurn : Bool
  turnL : Nat
  fmtA : Nat
  fmtB : Nat
  bin : Nat
  zs : Nat
  carried : Bool
  reload : Bool
  spill : Bool
  steps : Nat
  layer : Nat
  mbatch : Nat
  arm : Nat
  tile : Nat

def opxFields (w : Nat) : OpxF :=
  { form := bits w 117 116, colq := bits w 115 113, rowq := bits w 112 110, colTurn := bit w 109, rowTurn := bit w 108,
    turnL := bits w 107 101 + 1, fmtA := bits w 100 97, fmtB := bits w 96 93, bin := bits w 92 92, zs := bits w 91 90,
    carried := bit w 89, reload := bit w 88, spill := bit w 87, steps := bits w 86 67 + 1, layer := bits w 66 51,
    mbatch := bits w 50 39, arm := bits w 38 28, tile := bits w 27 17 }

/-- The drain parameters of WCFG half 0 (R175). -/
structure Wcfg where
  tkind : Nat
  port : Nat
  red : Nat
  ofmt : Nat
  rnd : Bool
  sat : Bool
  part : Nat
  bias : Nat
  act : Nat
  deriv : Bool
  tload : Nat
  zfmt : Nat
  tap : Nat
  dropT : Nat
  dmask : Bool
  biasq : Nat
  zq : Nat
  maskq : Nat
  expq : Nat
  tabq : Nat
  outq : Nat
  tapq : Nat
  pre32 : Bool
  slope : Word
  keepScale : Word
deriving DecidableEq, Repr

def wcfgOf (h0 h1 : BitVec 118) : Wcfg :=
  let w := h0.toNat
  let v := h1.toNat
  { tkind := bits w 116 115, port := bits w 114 110, red := bits w 109 108, ofmt := bits w 107 104, rnd := bit w 103,
    sat := bit w 102, part := bits w 101 101, bias := bits w 100 99, act := bits w 98 95, deriv := bit w 94,
    tload := bits w 93 92, zfmt := bits w 91 90, tap := bits w 89 88, dropT := bits w 87 72, dmask := bit w 71,
    biasq := bits w 70 68, zq := bits w 67 65, maskq := bits w 64 62, expq := bits w 61 59, tabq := bits w 58 56,
    outq := bits w 55 54, tapq := bits w 53 52, pre32 := bit w 51, slope := BitVec.ofNat 32 (bits v 116 85),
    keepScale := BitVec.ofNat 32 (bits v 84 53) }

/-- The reserved values a WCFG of half 0 is refused for at its own issue (R175). -/
def wcfgReserved (w : Nat) : Bool :=
  !bit w 117 &&
  (decide (4 ≤ bits w 98 95) || decide (bits w 93 92 = 3) || decide (bits w 100 99 = 3) || decide (bits w 91 90 = 3)
    || decide (bits w 116 115 = 3) || decide (24 ≤ bits w 114 110)
    || decide (bits w 107 104 = 0xF))

/-- The format code of a ZFMT or TAP selection. -/
def zfmtCode (z : Nat) : Nat := if z = 0 then 0x0 else if z = 1 then 0x1 else 0x2

end Sys2Proof.Machine
end

