-- ==== Sys2Proof/Machine/Records.lean ====
section
/-! DEFINITION. The records the block reads from device memory: Flume descriptors (R273), collective records (R309), kernel
records (R252), admission records (R214), channel records and route entries (R335); packet headers and control symbols
(R305, R306). Every field stands at the bits the spec gives it. -/

namespace Sys2Proof.Machine

/-- `n` bytes of device memory as they stand, with no error correction and no report. -/
def State.rawBytes (s : State) (a n : Nat) : List Byte := s.mem.rdBytes a n

/-- Bits [hi:lo] of 32-bit word `w` of a record held as one little-endian number. -/
def recBits (P w hi lo : Nat) : Nat := bits P (32 * w + hi) (32 * w + lo)

/-! ## Flume descriptors (R272 to R276) -/

/-- One level of a descriptor. -/
def fLevel (P l : Nat) : FLevel :=
  { cnt := recBits P (16 + 4 * l) 19 0 + 1,
    srcStride := sext 48 (recBits P (17 + 4 * l) 31 0 + 2 ^ 32 * recBits P (19 + 4 * l) 15 0),
    dstStride := sext 48 (recBits P (18 + 4 * l) 31 0 + 2 ^ 32 * recBits P (19 + 4 * l) 31 16) }

/-- The fields of a descriptor. -/
def fDescOf (P : Nat) : FDesc :=
  { srcSpace := recBits P 0 7 4, dstSpace := recBits P 0 11 8, srcRing := recBits P 0 16 12, dstRing := recBits P 0 21 17,
    bcast := recBits P 0 22 22 = 1, engLevel := recBits P 0 25 23, elem := 4 * (recBits P 1 13 0 + 1),
    engMask := recBits P 1 21 14, barn := recBits P 1 24 22, weirPort := recBits P 1 29 25, weirChan := recBits P 2 11 0,
    srcBase := bits P (32 * 3 + 63) (32 * 3), dstBase := bits P (32 * 5 + 63) (32 * 5),
    link := if recBits P 8 31 31 = 1 then some (2 ^ 8 * recBits P 7 31 8 + 2 ^ 32 * recBits P 8 9 0) else none,
    gateN := recBits P 9 15 0, preload := recBits P 9 31 16, gateEvery := recBits P 10 31 0, sigEvery := recBits P 11 31 0,
    sigKind := recBits P 12 1 0, sigTarget := recBits P 12 6 2, sigToken := recBits P 12 10 7, sigN := recBits P 12 26 11,
    sigTail := recBits P 12 27 27 = 1, levels := (List.range 6).map (fLevel P) }

/-- Are the reserved fields of a descriptor 0 and its version 1? -/
def fReservedOk (P : Nat) : Bool :=
  decide (recBits P 0 3 0 = 1) && decide (recBits P 0 31 26 = 0) && decide (recBits P 1 31 30 = 0)
    && decide (recBits P 2 31 12 = 0) && decide (recBits P 7 7 0 = 0) && decide (recBits P 8 30 10 = 0)
    && decide (recBits P 12 31 28 = 0) && decide (bits P 511 416 = 0) && decide (bits P 2047 1280 = 0)
    && (List.range 6).all (fun l => decide (recBits P (16 + 4 * l) 31 20 = 0))

/-- Elements of a descriptor (R274). -/
def FDesc.count (d : FDesc) : Nat := d.levels.foldl (fun n l => n * l.cnt) 1

/-- Number of bits set in the low eight bits. -/
def popcount8 (m : Nat) : Nat := ((List.range 8).filter (fun i => bit m i)).length

/-- log2 of a space's size, for its rings; none where the spec names no size. -/
def spaceRingMax (sp : Nat) : Nat := if sp = 2 then 22 else if sp = 3 then 25 else 64

/-- Is a ring field 0, or from 7 to 31 and within its space (R273, R276)? -/
def ringOk (ring sp : Nat) : Bool := decide (ring = 0) || (decide (7 ≤ ring) && decide (ring ≤ spaceRingMax sp))

/-- Does a descriptor have a Crib endpoint? -/
def FDesc.crib (d : FDesc) : Bool := decide (d.srcSpace = 2) || decide (d.dstSpace = 2)

/-- The choices of R275. -/
def FDesc.engOk (d : FDesc) : Bool :=
  let n := popcount8 d.engMask
  let lv := d.levels.getD (d.engLevel - 1) ⟨1, 0, 0⟩
  (decide (d.srcSpace ≠ 2) || decide (n = 1)) &&
  (if d.engLevel = 0 then d.bcast || decide (n = 1)
   else decide (lv.cnt = n) && decide (lv.dstStride = 0))

/-- The pairings of R272. -/
def FDesc.pairOk (d : FDesc) : Bool :=
  decide (d.srcSpace ≤ 4) && decide (d.dstSpace ≤ 4) && !(decide (d.srcSpace = 0) && decide (d.dstSpace = 0))
    && (decide (d.srcSpace ≠ 4) || decide (d.dstSpace = 1)) && (decide (d.dstSpace ≠ 4) || decide (d.srcSpace = 1))

/-- The FORMAT conditions of R276. -/
def fFormatOk (P : Nat) : Bool :=
  let d := fDescOf P
  fReservedOk P && d.pairOk && decide (d.engLevel ≠ 7) && decide (d.weirPort < 24)
    && !(d.bcast && decide (d.engLevel ≠ 0)) && (!d.crib || d.engOk) && decide (d.count ≤ 2 ^ 48)
    && decide (d.srcBase % 4 = 0) && decide (d.dstBase % 4 = 0)
    && d.levels.all (fun l => decide (l.srcStride % 4 = 0) && decide (l.dstStride % 4 = 0))
    && ringOk d.srcRing d.srcSpace && ringOk d.dstRing d.dstSpace
    && (decide (d.sigKind ≠ 0) || decide (d.sigTarget < 8)) && (decide (d.sigKind = 3) || decide (d.sigN ≠ 0))
    && (decide (d.gateEvery = 0) || decide (d.gateN ≠ 0))

/-- Engine numbers a mask of a barn names. -/
def maskEngines (b mask : Nat) : List Nat := ((List.range 8).filter (fun i => bit mask i)).map (fun i => 8 * b + i)

/-- The check of R276 on a descriptor's bytes: the descriptor, or the cause and whether the master freezes. -/
def fCheck (s : State) (P : Nat) : Except (Nat × Bool) FDesc :=
  let d := fDescOf P
  if !fFormatOk P then .error (Cause.FORMAT, true)
  else if d.crib && (maskEngines d.barn d.engMask).any (fun e => !s.present e) then .error (Cause.UNIT_ABSENT, true)
  else if d.crib && (maskEngines d.barn d.engMask).any (fun e => !s.enabled e) then .error (Cause.EPOCH_STALE, false)
  else .ok d

/-- Level indices of element `e`, level 0 fastest (R274). -/
def levelIdx : List FLevel → Nat → List Nat
  | [], _ => []
  | l :: ls, e => e % l.cnt :: levelIdx ls (e / l.cnt)

/-- Element `e`: source address, destination address, index of the level that selects the engine (R274). -/
structure FElem where
  src : Int
  dst : Int
  engIx : Option Nat

def FDesc.element (d : FDesc) (e : Nat) : FElem :=
  let ix := levelIdx d.levels e
  let src := (ix.zip d.levels).foldl (fun (a : Int) x => a + (x.1 : Int) * x.2.srcStride) 0
  let dst := (ix.zip d.levels).zipIdx.foldl (fun (a : Int) x =>
    if d.engLevel = x.2 + 1 then a else a + (x.1.1 : Int) * x.1.2.dstStride) 0
  let src := if d.srcRing = 0 then src else src % (2 ^ d.srcRing : Nat)
  let dst := if d.dstRing = 0 then dst else dst % (2 ^ d.dstRing : Nat)
  { src := (d.srcBase : Int) + src, dst := (d.dstBase : Int) + dst,
    engIx := if d.engLevel = 0 then none else some (ix.getD (d.engLevel - 1) 0) }

/-- The engines of a Crib endpoint for an element (R275). -/
def FDesc.engines (d : FDesc) (x : FElem) : List Nat :=
  match x.engIx with
  | some i => ((maskEngines d.barn d.engMask)[i]?).toList
  | none => maskEngines d.barn d.engMask

/-! ## Collective records (R309) -/

/-- A collective record. -/
structure CollRec where
  kind : Nat
  job : Nat
  phase : Nat
  send : Nat
  recv : Nat
  pos : Nat
  ring : Nat
  land : Nat
  ffmt : Nat
  headroom : Nat
  bucket : Bool
  layer : Nat
  bucketTiles : Nat
  tiles : Nat
  rowStride : Int
  colStride : Int
  tBase : Int
  landBase : Nat
  landT : Nat
  landR : Nat
  run : Nat
  expBase : Nat
  srcBase : Nat
  tbarn : Nat
  tcount : Nat
  tn : Nat
  pairIx : Nat
deriving DecidableEq, Repr

def collRecOf (P : Nat) : CollRec :=
  { kind := recBits P 0 2 0, job := recBits P 0 6 3, phase := recBits P 0 8 7, send := recBits P 0 13 9,
    recv := recBits P 0 18 14, pos := recBits P 0 31 19, ring := recBits P 1 12 0 + 1, land := recBits P 1 14 13,
    ffmt := recBits P 1 15 15, headroom := recBits P 1 17 16, bucket := recBits P 1 18 18 = 1, layer := recBits P 2 15 0,
    bucketTiles := recBits P 2 31 16, tiles := recBits P 3 23 0, rowStride := sext 16 (recBits P 4 15 0),
    colStride := sext 16 (recBits P 4 31 16), tBase := sext 24 (recBits P 5 23 0),
    landBase := bits P (32 * 6 + 41) (32 * 6), landT := recBits P 8 31 0, landR := recBits P 9 15 0,
    run := recBits P 9 24 16 + 1, expBase := bits P (32 * 10 + 41) (32 * 10), srcBase := bits P (32 * 12 + 41) (32 * 12),
    tbarn := recBits P 14 2 0, tcount := recBits P 14 6 3, tn := recBits P 14 22 7, pairIx := recBits P 15 9 0 }

/-- Are a collective record's reserved fields 0, with a kind the spec gives (R309, R310)? -/
def collReservedOk (P : Nat) : Bool :=
  decide (recBits P 0 2 0 ≤ 4) && decide (recBits P 1 31 19 = 0) && decide (recBits P 3 31 24 = 0)
    && decide (recBits P 5 31 24 = 0) && decide (recBits P 7 31 10 = 0) && decide (recBits P 9 31 25 = 0)
    && decide (recBits P 11 31 10 = 0) && decide (recBits P 13 31 10 = 0) && decide (recBits P 14 31 23 = 0)
    && decide (recBits P 15 31 10 = 0)

/-- Is it a reduce-scatter record? -/
def CollRec.isReduce (r : CollRec) : Bool := decide (r.kind = 0) || decide (r.kind = 1)

/-- Owner of tile `t` (R311). -/
def CollRec.owner (r : CollRec) (t : Nat) : Nat := t * r.ring / r.tiles
/-- First tile that position `p` owns (R311). -/
def CollRec.t0 (r : CollRec) (p : Nat) : Nat := (p * r.tiles + r.ring - 1) / r.ring
/-- Tiles that position `p` owns. -/
def CollRec.owned (r : CollRec) (p : Nat) : Nat := r.t0 (p + 1) - r.t0 p
/-- Address of row `p` of tile `t` at the landing (R317). -/
def CollRec.landAddr (r : CollRec) (t p : Nat) : Nat := r.landBase + (t - r.t0 (r.owner t)) * r.landT + p * r.landR

/-- Records of the applied collective table. -/
def State.collCount (s : State) : Nat := s.fld Reg.global.COLL_CTRL 9 0
/-- Record `i` of the applied table, as the commit that brought it read and checked it (R310; assumption 118). -/
def State.collRec (s : State) (i : Nat) : CollRec := collRecOf (s.tally.colls[i]?.getD 0).toNat
/-- Every record with its index. -/
def State.collRecs (s : State) : List (Nat × CollRec) := (List.range s.collCount).map (fun i => (i, s.collRec i))
/-- The records of job `j` that take part in its active phase map (R311). -/
def State.liveRecs (s : State) (j : Nat) : List (Nat × CollRec) :=
  s.collRecs.filter (fun x => decide (x.2.job = j) && decide (x.2.phase = (s.job j).map))
/-- Does a record of the applied table use the port (R351)? -/
def CollRec.uses (r : CollRec) (p : Nat) : Bool := decide (r.send = p) || decide (r.recv = p)
def State.portLive (s : State) (p : Nat) : Bool := s.collRecs.any (fun x => x.2.uses p)
/-- Jobs with a record on the port. -/
def State.portJobs (s : State) (p : Nat) : List Nat :=
  (List.range 16).filter (fun j => s.collRecs.any (fun x => decide (x.2.job = j) && x.2.uses p))
/-- Ports of a job's records, each once. -/
def State.jobPorts (s : State) (j : Nat) : List Nat :=
  (List.range 24).filter (fun p => s.collRecs.any (fun x => decide (x.2.job = j) && x.2.uses p))
/-- Does the job hold a record? -/
def State.jobLive (s : State) (j : Nat) : Bool := s.collRecs.any (fun x => decide (x.2.job = j))

/-- Slot `k` of a job in PM_SEQ (R348). -/
def State.pmSlot (s : State) (j k : Nat) : Nat :=
  let lo := 8 * (j % 4) + 2 * k
  s.fld (Reg.global.PM_SEQ (j / 4)) (lo + 1) lo
/-- The verdict record of a job: that of its slot-1 map (R348). -/
def State.verdictRec (s : State) (j : Nat) : Option (Nat × CollRec) :=
  s.collRecs.find? (fun x => decide (x.2.kind = 3) && decide (x.2.job = j) && decide (x.2.phase = s.pmSlot j 1))
/-- The job of a barn's main bank or of its catch-crop bank (R311). -/
def State.barnJob (s : State) (b : Nat) (cc : Bool) : Nat :=
  let lo := 8 * (b % 4) + (if cc then 4 else 0)
  s.fld (if b < 4 then Reg.global.BARN_JOB0 else Reg.global.BARN_JOB1) (lo + 3) lo

/-! ## Kernel records (R252) -/

structure KernelRec where
  kind : Nat
  layer : Nat
  elem0 : Nat
  count : Nat
  w : Nat
  m : Nat
  v : Nat
  g : Nat
  out : Nat
deriving DecidableEq, Repr

/-- Offsets in bytes. -/
def kernelRecOf (P : Nat) : KernelRec :=
  { kind := recBits P 0 3 0, layer := recBits P 0 31 16, elem0 := recBits P 1 31 0 + 2 ^ 32 * recBits P 2 9 0,
    count := recBits P 3 31 0, w := 256 * recBits P 4 31 0, m := 256 * recBits P 5 31 0, v := 256 * recBits P 6 31 0,
    g := 256 * recBits P 7 31 0, out := 256 * recBits P 8 31 0 }

/-- 192 GiB of Lake and 64 GiB of Pond per stack (R239). -/
abbrev lakeSize : Nat := 192 * 2 ^ 30
abbrev pondSize : Nat := 64 * 2 ^ 30

/-- Bytes of the arrays that a record of the kind has in a generation: master weights, first and second moment. -/
def KernelRec.genSpans (r : KernelRec) : List (Nat × Nat) :=
  if r.kind = 0 then [(r.w, 256 * r.count)]
  else [(r.w, 4 * r.count)] ++ (if r.kind = 3 then [] else [(r.m, 2 * r.count)])
    ++ (if r.kind = 2 then [(r.v, 2 * r.count)] else [])

/-- Do arrays of generation 0 and of generation 1 of these records overlap (R251)? -/
def genOverlap (rs : List KernelRec) (base0 base1 : Nat) : Bool :=
  let spans := rs.flatMap KernelRec.genSpans
  spans.any (fun x => spans.any (fun y => decide (base0 + x.1 < base1 + y.1 + y.2) && decide (base1 + y.1 < base0 + x.1 + x.2)))

/-- The check of a record (R252) at the committed GEN_BASE values: no reserved value, its arrays wholly in the Lake, those of two
generations apart (R251), its outputs in the Pond, ELEM0 + COUNT at most 2^42. -/
def kernelOk (P : Nat) (single : Bool) (base0 base1 : Nat) : Bool :=
  let r := kernelRecOf P
  decide (r.kind ≤ 3) && decide (recBits P 0 15 4 = 0) && decide (recBits P 2 31 10 = 0) && decide (r.count ≠ 0)
    && decide (bits P 511 288 = 0) && decide (r.elem0 + r.count ≤ 2 ^ 42)
    && r.genSpans.all (fun x => decide (base0 + x.1 + x.2 ≤ lakeSize) && (single || decide (base1 + x.1 + x.2 ≤ lakeSize)))
    && (decide (r.kind = 0) || decide (r.kind = 3) || decide (r.g + 4 * r.count ≤ lakeSize))
    && (decide (r.kind = 0) || decide (r.out + 2 * r.count ≤ pondSize)) && (single || !genOverlap [r] base0 base1)

/-- Device address of a stack's Lake offset (R242). -/
def lakeAddr (k o : Nat) : Nat := (1 + o / 2 ^ 36) * 2 ^ 40 + k * 2 ^ 36 + o % 2 ^ 36
/-- Device address of a stack's Pond offset. -/
def pondAddr (k o : Nat) : Nat := k * 2 ^ 36 + o % 2 ^ 36

/-! ## Admission records (R214, R215) -/

def admRecOf (P : Nat) : AdmRec :=
  { barn := recBits P 0 2 0, rel := recBits P 0 4 3, catchCrop := recBits P 0 5 5 = 1, ccBins := recBits P 0 7 6,
    ccRec := recBits P 0 18 8, ccEntries := recBits P 0 28 19, ext := recBits P 1 15 0, engMask := recBits P 1 23 16,
    beats := recBits P 2 31 0 + 2 ^ 32 * recBits P 3 15 0, deadline := recBits P 4 31 0, fallowUs := recBits P 5 23 0,
    fallowMax := recBits P 6 15 0, segCount := recBits P 6 31 16,
    n := (List.range 5).map (fun p => recBits P (8 + 4 * p) 15 0),
    x := (List.range 5).map (fun p => recBits P (9 + 4 * p) 31 0),
    y := (List.range 5).map (fun p => recBits P (10 + 4 * p) 31 0) }

/-- Are an admission record's reserved fields and values as R215 asks? -/
def admReservedOk (P : Nat) : Bool :=
  decide (recBits P 0 4 3 ≠ 3) && decide (recBits P 0 7 6 ≠ 3) && decide (recBits P 0 31 29 = 0)
    && (decide (recBits P 0 18 8 < 1024) || decide (recBits P 0 18 8 = 0x7FF)) && decide (recBits P 1 31 24 = 0)
    && decide (recBits P 3 31 16 = 0) && decide (recBits P 5 31 24 = 0) && decide (recBits P 7 31 0 = 0)
    && (List.range 5).all (fun p => decide (recBits P (8 + 4 * p) 31 16 = 0) && decide (recBits P (11 + 4 * p) 31 0 = 0))
    && decide (bits P 1023 896 = 0)

/-! ## Packets (R306, R307) -/

/-- Fields of a packet header. -/
structure Hdr where
  cls : Nat
  kind : Nat
  job : Nat
  slow : Bool
  src : Nat
  dst : Nat
  roster : Nat
  len : Nat
  tag : Nat
  rest : Nat
deriving DecidableEq, Repr

def Packet.fields (p : Packet) : Hdr :=
  let h := p.hdr.toNat
  { cls := bits h 2 0, kind := bits h 6 3, job := bits h 10 7, slow := bit h 11, src := bits h 26 13, dst := bits h 40 27,
    roster := bits h 56 41, len := bits h 67 57, tag := bits h 76 68, rest := bits h 127 77 }

/-- Pack a header; `len` is the payload's length. -/
def mkPacket (cls kind job : Nat) (slow : Bool) (src dst roster tag rest : Nat) (payload : List Byte) : Packet :=
  { hdr := BitVec.ofNat 128 (cls % 8 + 2 ^ 3 * (kind % 16) + 2 ^ 7 * (job % 16) + 2 ^ 11 * b2n slow + 2 ^ 13 * (src % 2 ^ 14)
      + 2 ^ 27 * (dst % 2 ^ 14) + 2 ^ 41 * (roster % 2 ^ 16) + 2 ^ 57 * (payload.length % 2 ^ 11) + 2 ^ 68 * (tag % 2 ^ 9)
      + 2 ^ 77 * (rest % 2 ^ 51)),
    payload := payload }

/-- REDUCE fields: COLL, TILE, ROW, STEP. -/
def Hdr.coll (h : Hdr) : Nat := bits h.rest 9 0
def Hdr.tile (h : Hdr) : Nat := bits h.rest 33 10
def Hdr.row (h : Hdr) : Nat := bits h.rest 40 34
def Hdr.step (h : Hdr) : Nat := bits h.rest 50 41
def reduceRest (coll tile row step : Nat) : Nat :=
  coll % 2 ^ 10 + 2 ^ 10 * (tile % 2 ^ 24) + 2 ^ 34 * (row % 2 ^ 7) + 2 ^ 41 * (step % 2 ^ 10)
/-- TENSOR and BULK fields: CHAN and OFFSET. -/
def Hdr.chan (h : Hdr) : Nat := bits h.rest 11 0
def Hdr.tensorOff (h : Hdr) : Nat := bits h.rest 43 12
def Hdr.bulkOff (h : Hdr) : Nat := bits h.rest 50 12
/-- TUNNEL fields (R345). -/
def Hdr.tunAddr (h : Hdr) : Nat := bits h.rest 41 0
def Hdr.rdlen (h : Hdr) : Nat := bits h.rest 50 42

/-- This module's node ID. -/
def State.moduleId (s : State) : Nat := s.fld Reg.global.MODULE_ID 13 0
/-- STEP of symbols and headers (R305). -/
def State.step10 (s : State) : Nat := (s.reg Reg.spring.STEP).toNat % 1024
/-- ROSTERj. -/
def State.roster (s : State) (j : Nat) : Nat := s.fld (Reg.global.ROSTER j) 15 0

/-- The byte of the route table for node `d` in phase map `m` (R335). -/
def State.routeAddr (s : State) (m d : Nat) : Nat := s.pair Reg.global.ROUTE_BASE_LO Reg.global.ROUTE_BASE_HI + 16384 * m + d

/-! ## Control symbols (R305) -/

abbrev Sym.ACK : Nat := 1
abbrev Sym.NAK : Nat := 2
abbrev Sym.CREDIT : Nat := 3
abbrev Sym.TACK : Nat := 4
abbrev Sym.SLOW : Nat := 5
abbrev Sym.ABORT : Nat := 6
abbrev Sym.RESUME : Nat := 7
abbrev Sym.VERDICT : Nat := 8
abbrev Sym.LANE : Nat := 9
abbrev Sym.TELEMETRY : Nat := 10

/-- A symbol of a type, a job and a body whose bits are given at their places. -/
def mkSym (ty job body : Nat) : BitVec 64 := BitVec.ofNat 64 (ty % 16 + 2 ^ 4 * (job % 16) + body)

def symType (v : BitVec 64) : Nat := bits v.toNat 3 0
def symJob (v : BitVec 64) : Nat := bits v.toNat 7 4

def symAck (seq : BitVec 12) : BitVec 64 := mkSym Sym.ACK 0 (2 ^ 8 * seq.toNat)
def symNak (seq : BitVec 12) : BitVec 64 := mkSym Sym.NAK 0 (2 ^ 8 * seq.toNat)
def symCredit (cls job count : Nat) : BitVec 64 := mkSym Sym.CREDIT job (2 ^ 8 * (cls % 8) + 2 ^ 11 * (count % 2 ^ 16))
def symTack (job tag : Nat) (bad : Bool) : BitVec 64 := mkSym Sym.TACK job (2 ^ 8 * (tag % 2 ^ 9) + 2 ^ 17 * b2n bad)
def symSlow (job step : Nat) : BitVec 64 := mkSym Sym.SLOW job (2 ^ 8 * (step % 2 ^ 10))
def symAbort (job cause step origin : Nat) (late : Bool) : BitVec 64 :=
  mkSym Sym.ABORT job (2 ^ 8 * (cause % 256) + 2 ^ 16 * (step % 2 ^ 10) + 2 ^ 26 * (origin % 2 ^ 14) + 2 ^ 40 * b2n late)
def symResume (job lap roster step : Nat) : BitVec 64 :=
  mkSym Sym.RESUME job (2 ^ 8 * (lap % 2) + 2 ^ 9 * (roster % 2 ^ 16) + 2 ^ 25 * (step % 2 ^ 10))
def symVerdict (job lap : Nat) (nf spike : Bool) (step : Nat) : BitVec 64 :=
  mkSym Sym.VERDICT job (2 ^ 8 * (lap % 2) + 2 ^ 9 * b2n nf + 2 ^ 10 * b2n spike + 2 ^ 11 * (step % 2 ^ 10))
def symLane (mask : BitVec 4) (seq : BitVec 12) : BitVec 64 := mkSym Sym.LANE 0 (2 ^ 8 * mask.toNat + 2 ^ 12 * seq.toNat)

end Sys2Proof.Machine
end

