-- ==== Sys2Proof/Machine/Slice.lean ====
section
/-! DEFINITION. Self-test slices (R228 to R231, R407 to R410): their regions, budgets and home barns, the refusals of a
request, the start of a slice, and the fallow window that runs one. -/

namespace Sys2Proof.Machine

/-- Budget in µs of a slice code (R407); 0 for a reserved code. -/
def sliceBudget (code : Nat) : Nat :=
  match code with
  | 0x1 | 0x2 => 15
  | 0x3 | 0x5 => 20
  | 0x4 | 0xA => 10
  | 0x6 => 15
  | 0x7 | 0x8 | 0x9 => 25
  | 0xB => 150
  | 0xC => 5
  | _ => 0

/-- The home barn of a region (R228). -/
def SliceReq.home (r : SliceReq) : Nat :=
  match r.code with
  | 0x1 | 0x2 | 0x3 | 0x4 => bits r.inst 5 0 / 8
  | 0x5 | 0x6 => bits r.inst 2 0
  | 0x7 | 0x8 | 0x9 | 0xA => bits r.inst 3 0 / 2
  | 0xB => bits r.inst 4 0 / 3
  | _ => bits r.inst 4 0 / 4

/-- Does the INST field fit the code (R407)? -/
def SliceReq.fits (r : SliceReq) : Bool :=
  match r.code with
  | 0x1 | 0x2 | 0x4 => decide (r.inst < 2 ^ 6)
  | 0x3 => decide (r.inst < 2 ^ 11)
  | 0x5 => decide (r.inst < 2 ^ 11)
  | 0x6 => decide (r.inst < 2 ^ 5) && decide (bits r.inst 4 3 ≠ 3)
  | 0x7 => decide (r.inst < 2 ^ 20)
  | 0x8 => decide (bits r.inst 23 4 < 786432)
  | 0xA => decide (r.inst < 2 ^ 4)
  | 0xB => decide (r.inst < 24)
  | 0xC => decide (r.inst < 32)
  | _ => false

/-- Is the region retired or absent (R408)? -/
def State.regionGone (s : State) (r : SliceReq) : Bool :=
  match r.code with
  | 0x1 | 0x2 | 0x3 | 0x4 => !s.present (bits r.inst 5 0) || (s.engine (bits r.inst 5 0)).retired
  | 0x5 | 0x6 => (List.range 8).all (fun i =>
      !s.present (8 * bits r.inst 2 0 + i) || (s.engine (8 * bits r.inst 2 0 + i)).retired)
  | 0x7 => (s.stack (bits r.inst 3 0)).pondRetired
  | 0x8 => (s.stack (bits r.inst 3 0)).lakeRetired
  | 0xA => (s.stack (bits r.inst 3 0)).pondRetired && (s.stack (bits r.inst 3 0)).lakeRetired
  | 0xB => (s.port r.inst).retired
  | 0xC => (s.flume r.inst).retired
  | _ => false

/-- The committed swap of a barn waits (R191): applied and not yet made, or shadowed by a commit in progress. -/
def State.swapPending (s : State) (b : Nat) : Bool :=
  (s.barn b).swapPending || (decide (s.tally.state = .committing)
    && s.tally.shadows.any (fun x => decide (x.addr = Reg.barn.BANK_SWAP b) && bit x.val.toNat 0))

/-- Is bank `k` of barn `b` live (R189)? -/
def State.bankLive (s : State) (b k : Nat) : Bool :=
  let x := s.barn b
  let act := b2n x.active
  if k = 2 then s.regBit (Reg.barn.SEQ_CTRL b) 1 || decide (x.phase = .cc) || (x.ccSave.isSome && decide (x.phase = .fallow))
  else decide (k = act) || s.swapPending b

/-- Do two slices test one region, or save into the same hold buffers (R407)? -/
def SliceReq.meets (r q : SliceReq) : Bool :=
  let eng (x : SliceReq) : Bool := decide (1 ≤ x.code) && decide (x.code ≤ 4)
  let mem (x : SliceReq) : Bool := decide (x.code = 0x7) || decide (x.code = 0x8) || decide (x.code = 0xA)
  decide (r = q) || (eng r && eng q && decide (bits r.inst 5 0 = bits q.inst 5 0))
    || (mem r && mem q && decide (bits r.inst 3 0 = bits q.inst 3 0))

/-- Does the slice of the open window of barn `b` run? -/
def State.windowSlice (s : State) (b : Nat) : Bool := s.sliceRun.any (fun x => x.inWindow && decide (x.req.home = b))

/-- Does a slice run whose home is barn `b`? -/
def State.sliceAt (s : State) (b : Nat) : Bool := s.slicing (fun r => decide (r.home = b))

/-- May the slice begin now? A Granary slice whose bank is live is deferred again (R408), and a region under test is not tested
twice at once. -/
def State.sliceReady (s : State) (r : SliceReq) : Bool :=
  (r.code ≠ 0x6 || !s.bankLive (bits r.inst 2 0) (bits r.inst 4 3)) && !s.slicing (fun q => r.meets q)

/-- RESULT, CODE and INST of SLICE_STATUS (R394). -/
def State.setSliceStatus (s : State) (r : SliceReq) (result : Nat) : State :=
  s.setReg Reg.gleaner.SLICE_STATUS (BitVec.ofNat 32 (result % 8 + 2 ^ 3 * (r.code % 16) + 2 ^ 7 * (r.inst % 2 ^ 24)))

/-- Does SLICE_STATUS show this request? -/
def State.sliceShown (s : State) (r : SliceReq) : Bool :=
  decide (s.fld Reg.gleaner.SLICE_STATUS 6 3 = r.code) && decide (s.fld Reg.gleaner.SLICE_STATUS 30 7 = r.inst)

/-- The slice begins, in a window or not; SLICE_STATUS shows the last request only. -/
def State.startSlice (s : State) (r : SliceReq) (inWindow : Bool) : State :=
  let s : State := { s with
    sliceRun := s.sliceRun ++ [⟨r, s.time, s.fld (Reg.port.FEC_CE r.inst) 31 0, false, inWindow⟩]
    slicePend := s.slicePend.filter (fun q => decide (q ≠ r)) }
  if s.sliceShown r then s.setSliceStatus r 2 else s

/-- The oldest deferred slice of the barn whose budget fits the window (R231). -/
def State.deferredFor (s : State) (b window : Nat) : Option SliceReq :=
  s.slicePend.find? (fun r => decide (r.home = b) && decide (sliceBudget r.code ≤ window) && s.sliceReady r)

/-- Does a row of a stack homed on the barn wait for a window (R260)? -/
def State.spareWaits (s : State) (b : Nat) : Bool :=
  [2 * b, 2 * b + 1].any (fun k => (s.stack k).spareQ.any (fun e => !e.2))

/-- A fallow window opens (R186, R231): it runs the oldest deferred slice that fits, or stays open for a row to spare;
with neither it closes as it opens. -/
def State.openFallow (s : State) (b window : Nat) : State :=
  match s.deferredFor b window with
  | some r => (s.startSlice r true).modBarn b (fun x => { x with phase := .fallow, fallow := some ⟨window, some s.time⟩ })
  | none =>
    if s.spareWaits b && decide (sliceBudget 0x9 ≤ window) then
      s.modBarn b (fun x => { x with phase := .fallow, fallow := some ⟨window, some s.time⟩ })
    else s.modBarn b (fun x => { x with fallow := none })

/-- The window closes: the barn issues on. -/
def State.closeFallow (s : State) (b : Nat) : State :=
  s.modBarn b (fun x =>
    if x.phase = .fallow then { x with phase := if x.ccSave.isSome then .cc else .run, fallow := none } else x)

/-- Has the open window of barn `b` stood open for WINDOW (R186, R49)? -/
def State.windowOver (s : State) (b : Nat) : Bool :=
  match (s.barn b).fallow with
  | some f =>
    (match f.openedAt with
      | some t => reachedUs (s.time - t) f.window
      | none => false)
  | none => false

/-- Does a slice of the code fit in what is left of the open window of barn `b`, which runs none (R186)? -/
def State.windowFits (s : State) (b code : Nat) : Bool :=
  !s.windowSlice b && (match (s.barn b).fallow with
    | some f =>
      (match f.openedAt with
        | some t => decide ((s.time - t) * 64 + sliceBudget code * 10000 ≤ f.window * 10000)
        | none => false)
    | none => false)

/-- Does a live admission leave the slice no window: no record of its home barn has FALLOW_MAX for it (R230)? -/
def State.noFallow (s : State) (home code : Nat) : Bool :=
  s.tally.live && !s.tally.recs.any (fun r => decide (r.barn = home) && decide (sliceBudget code ≤ r.fallowMax))

/-! ## Regions under test, whose accesses wait (R228, R409) -/

/-- This line of device memory? -/
def State.sliceHoldsLine (s : State) (l : Nat) : Bool :=
  let k := bits (64 * l) 39 36
  s.slicing (fun r => decide (bits r.inst 3 0 = k) &&
    ((decide (r.code = 0x7) && decide (bits (64 * l) 41 40 = 0) && decide (bits (64 * l) 35 20 = bits r.inst 19 4))
      || (decide (r.code = 0x8) && decide (bits (64 * l) 41 40 ≠ 0)
        && decide (((bits (64 * l) 41 40 - 1) * 2 ^ 36 + bits (64 * l) 35 0) / 2 ^ 18 = bits r.inst 23 4))))

/-- A Crib bank of engine `e` (R61)? -/
def State.sliceHoldsCrib (s : State) (e a n : Nat) : Bool :=
  s.slicing (fun r => decide (r.code = 0x3) && decide (bits r.inst 5 0 = e)
    && (List.range (n / 128 + 2)).any (fun i =>
      let o := a / 128 * 128 + 128 * i
      decide (o < a + n) && decide ((o / 128 % 32) ^^^ (16 * (o / 2097152 % 2)) = bits r.inst 10 6)))

/-- A segment of the Loft of barn `b`? -/
def State.sliceHoldsLoft (s : State) (b a n : Nat) : Bool :=
  s.slicing (fun r => decide (r.code = 0x5) && decide (bits r.inst 2 0 = b) && decide (a / 131072 ≤ bits r.inst 10 3)
    && decide (bits r.inst 10 3 ≤ (a + n - 1) / 131072))

/-- Bank `k` of the Granary of barn `b`? -/
def State.sliceHoldsGranary (s : State) (b k : Nat) : Bool :=
  s.slicing (fun r => decide (r.code = 0x6) && decide (bits r.inst 2 0 = b) && decide (bits r.inst 4 3 = k))

/-- A Granary window write lands, or waits for the slice that tests a bank it aims at (R228). -/
def State.granLand (s : State) (g : GranWait) : State :=
  if (List.range g.data.length).any (fun i => match granSite (g.addr + i) with
      | some q => s.sliceHoldsGranary q.1 q.2
      | none => false)
  then { s with granWaits := s.granWaits ++ [g] }
  else s.granPuts g.addr g.data

/-- The array of engine `e` (codes 1 and 2 test its product lanes, bins and checksum lanes)? -/
def State.sliceHoldsArray (s : State) (e : Nat) : Bool :=
  s.slicing (fun r => (decide (r.code = 0x1) || decide (r.code = 0x2)) && decide (bits r.inst 5 0 = e))

/-- Winnow of engine `e`: its stages, or the hold buffers that an engine's or a Loft's slice saves to (R407)? -/
def State.sliceHoldsWinnow (s : State) (e : Nat) : Bool :=
  s.slicing (fun r => (decide (1 ≤ r.code) && decide (r.code ≤ 4) && decide (bits r.inst 5 0 = e))
    || ((decide (r.code = 0x5) || decide (r.code = 0x6)) && decide (bits r.inst 2 0 = e / 8)
      && (s.barnEngines (e / 8)).head? = some e))

/-- The adders and vector unit of stack `k`? -/
def State.sliceHoldsMill (s : State) (k : Nat) : Bool :=
  s.slicing (fun r => decide (r.code = 0xA) && decide (bits r.inst 3 0 = k))

/-- The adder and checksum of port `p`? -/
def State.sliceHoldsPort (s : State) (p : Nat) : Bool := s.slicing (fun r => decide (r.code = 0xB) && decide (r.inst = p))

/-- Flume `f`? -/
def State.sliceHoldsFlume (s : State) (f : Nat) : Bool := s.slicing (fun r => decide (r.code = 0xC) && decide (r.inst = f))

/-- Does a slice test a part of engine `e`? -/
def State.sliceInEngine (s : State) (e : Nat) : Bool :=
  s.slicing (fun r => decide (1 ≤ r.code) && decide (r.code ≤ 4) && decide (bits r.inst 5 0 = e))

/-- Would taking the unit of UNIT_OFFLINE's TYPE and UNIT off line take a region under test away (R409)? -/
def State.sliceInUnit (s : State) (ty u : Nat) : Bool :=
  match ty with
  | 0 => s.sliceInEngine u
  | 1 => s.sliceInChannel u .pond
  | 2 => s.sliceInChannel u .lake
  | 3 => s.sliceHoldsPort u
  | 4 => s.sliceHoldsFlume u
  | _ => s.slicing (fun r => decide (1 ≤ r.code) && decide (r.code ≤ 6) && decide (r.home = u))

/-- Does a slice of a main Granary bank put off the bank swap of barn `b` (R409)? -/
def State.swapHeld (s : State) (b : Nat) : Bool :=
  s.slicing (fun r => decide (r.code = 0x6) && decide (bits r.inst 2 0 = b) && decide (bits r.inst 4 3 ≤ 1))

/-- A received flit of port `p` has failed its CRC: a LINK slice of the port cannot pass (R407). -/
def State.noteCrc (s : State) (p : Nat) : State :=
  { s with sliceRun := s.sliceRun.map (fun x => if x.req = ⟨0xB, p⟩ then { x with crcFailed := true } else x) }

/-- A request of a slice by a master with the right (R229, R230, R408): refused, joined to one deferred, run at once, or
deferred. A slice that has to wait for a live span is a disagreement of R235. A request made in an open window of its home barn runs in it
where it fits in what is left of the window, and two requests are for the same region where CODE and INST agree (assumption 103). -/
def State.sliceRequest (s : State) (w : Writer) (r : SliceReq) : State :=
  if sliceBudget r.code = 0 ∨ r.code = 0x9 ∨ !r.fits ∨ s.regionGone r then
    (s.setSliceStatus r 6).refuseNoFreeze .gleaner w Cause.FORMAT
  else if s.noFallow r.home r.code then (s.setSliceStatus r 6).refuseNoFreeze .gleaner w Cause.NO_FALLOW
  else if s.slicePend.contains r then s.setSliceStatus r 1
  else
    let idle := decide ((s.barn r.home).phase = .idle) && !s.tally.live
    let windowOpen := s.windowFits r.home r.code
    let s := s.setSliceStatus r 1
    let s := { s with slicePend := s.slicePend ++ [r] }
    if s.sliceReady r && (idle || windowOpen) then s.startSlice r windowOpen
    else if s.tally.live && (s.tally.spans[r.home]?.getD Span.reset).live then
      s.report .tally { cause := Cause.STATE_DISAGREE, cls := Cls.corrected }
    else s

end Sys2Proof.Machine
end

