-- ==== Sys2Proof/Machine/Fatal.lean ====
section
/-! DEFINITION. The Fatal state (R397). -/

namespace Sys2Proof.Machine

/-- Every master but the management port, in ascending ID (R401). -/
def fatalMasters : List Nat :=
  [0, 2, 3, 4, 5] ++ (List.range 8).map (fun b => 8 + b) ++ (List.range 32).map (fun f => 0x10 + f)
    ++ (List.range 16).map (fun k => 0x30 + k)

/-- The Tally's row for a Fatal event (R469). -/
def State.discardTx (s : State) (cause : Nat) : State :=
  let t := s.tally
  match t.state with
  | .idle => s
  | .opened =>
    { s with tally := { t with state := .idle, owner := Master.none, shadows := [], result := 5, lastCause := cause } }
  | .committing =>
    let s := s.failCommit 5 cause
    s

/-- Every stack enters self-refresh (R397 step 4). -/
def State.allSelfRefresh (s : State) : State :=
  (List.range 16).foldl (fun s k => s.setFld (Reg.ctl.MEM_STATUS k) 4 4 1) s

/-- ABORT of every job on each of its ports (R397 step 3). -/
def State.fatalAborts (s : State) (cause : Nat) : State :=
  (List.range 24).foldl (fun s p =>
    (s.portJobs p).foldl (fun s j => s.sendSym p (symAbort j cause s.step10 s.moduleId false)) s) s

/-- Every slice stops without restoring (R409); what waited for one is gone with it. -/
def State.stopSlices (s : State) : State :=
  let shown := s.slicing s.sliceShown
  let s := { s with sliceRun := [], regionActs := [], granWaits := [] }
  if shown then s.setFld Reg.gleaner.SLICE_STATUS 2 0 7 else s

/-- The sequence of R397 for an event of class Fatal, once. The admission is ended before the masters freeze, so that
END_REASON reads 5 (assumption 12). -/
def State.enterFatal (s : State) (cause : Nat) : State :=
  if s.fatal then s
  else
    let s := { s with fatal := true }
    let s := s.endAdmission 5
    let s := s.discardTx cause
    let s := fatalMasters.foldl (fun s m => s.freeze m cause) s
    let s := s.fatalAborts cause
    let s := s.stopSlices.allSelfRefresh
    if cause = Cause.SUPPLY_WARN then { s with module := { s.module with power := .stopped } } else s

/-- An event of class Fatal: its report, then the sequence. -/
def State.reportFatal (s : State) (pg : Page) (src : Nat) (e : Event) : State :=
  (s.reportAt pg src e).enterFatal e.cause

/-! ## Sluices (R399) -/

/-- A sluice entry that fails parity: a data entry is an event in class Contained against the master it carries, a credit
entry one in class Fatal; both at summary bit 121. -/
def State.sluiceFail (s : State) (credit : Bool) (m : Nat) (inj : Bool) : State :=
  if credit then
    s.reportFatal .global 121 { cause := Cause.MEM_UNCORRECTABLE, cls := Cls.fatal, inj := inj }
  else s.reportAt .global 121 { cause := Cause.MEM_UNCORRECTABLE, cls := Cls.contained, master := masterCode m, inj := inj }

/-- Does the CREDIT bit of the device-global page send sluice injections into credit entries (R406)? -/
def State.injectCredit (s : State) : Bool := s.regBit (Reg.global.page + Reg.header.ERR_INJECT) 5

/-- A sluice with injection bit `i` of the page at `base`, crossed by an access of master `m`: the state, and whether the
data entry was bad. -/
def State.sluiceInject (s : State) (base i m : Nat) : State × Bool :=
  let a := base + Reg.header.ERR_INJECT
  if s.regBit a i then
    let credit := s.injectCredit
    let s := s.setFld a i i 0
    (s.sluiceFail credit m true, !credit)
  else (s, false)

/-- What comes with an access as its sluice parity (R399): the state, and whether the access is lost. -/
def State.sluiceParity (s : State) (p : SluiceParity) (m : Nat) : State × Bool :=
  match p with
  | .good => (s, false)
  | .badData => (s.sluiceFail false m false, true)
  | .badCredit => (s.sluiceFail true m false, false)

end Sys2Proof.Machine
end

