-- ==== Sys2Proof/Machine/Mem.lean ====
section
/-! DEFINITION. Device memory as its controllers serve it (R240 to R245, R259 to R265): lines with their code state, reports
of uncorrectable lines, read-modify-write of part lines, retired channels, spare rows. -/

namespace Sys2Proof.Machine

/-! ## Addresses (R242) -/

def addrTier (a : Nat) : Tier := if bits a 41 40 = 0 then .pond else .lake
def addrStack (a : Nat) : Nat := bits a 39 36

/-- Line numbers that `n` bytes at `a` touch. -/
def linesOf (a n : Nat) : List Nat :=
  if n = 0 then [] else (List.range ((a + n - 1) / 64 - a / 64 + 1)).map (fun i => a / 64 + i)

/-- Is the line's channel retired or off line (R245)? -/
def State.channelGone (s : State) (l : Nat) : Bool :=
  let k := s.stack (addrStack (64 * l))
  match addrTier (64 * l) with
  | .pond => k.pondRetired || k.pondOffApplied
  | .lake => k.lakeRetired || k.lakeOffApplied

/-- Does an access to `n` bytes at `a` wait: for a stack in self-refresh (R268), or for a slice (R228)? -/
def State.memWaits (s : State) (a n : Nat) : Bool :=
  (linesOf a n).any (fun l => s.regBit (Reg.ctl.MEM_STATUS (addrStack (64 * l))) 4 || s.sliceHoldsLine l)

/-! ## What the code makes of a line (R259, R265) -/

/-- Uncorrectable: two inverted symbols, or a channel that is gone. -/
def State.lineBad (s : State) (l : Nat) : Bool := s.channelGone l || decide (2 ≤ (s.memTag.rd l).toNat)
/-- Corrected by the second layer. -/
def State.lineCorrected (s : State) (l : Nat) : Bool := !s.channelGone l && decide ((s.memTag.rd l).toNat = 1)
/-- Was the line written under ERR_INJECT (R405)? -/
def State.lineInjected (s : State) (l : Nat) : Bool :=
  !s.channelGone l && (decide ((s.memTag.rd l).toNat = 1) || decide ((s.memTag.rd l).toNat = 2))

/-- The mark that ERR_INJECT of the stack's controller stores with a line (R265). -/
def State.writeTag (s : State) (l : Nat) : BitVec 2 :=
  let a := Reg.ctl.page (addrStack (64 * l)) + Reg.header.ERR_INJECT
  let i := match addrTier (64 * l) with
    | .pond => 0
    | .lake => 1
  if s.regBit a (i + 2) then 2 else if s.regBit a i then 1 else 0

/-! ## Dies and rows (R240, R263) -/

/-- The die of a line, numbered over the module: consecutive 256-byte blocks of a tier rotate across its eight dies (R240). -/
def lineDie (l : Nat) : Nat :=
  8 * (2 * addrStack (64 * l) + (match addrTier (64 * l) with
    | .pond => 0
    | .lake => 1)) + l / 4 % 8

/-- Offset of a line's address within its tier (R242). -/
def tierOffset (l : Nat) : Nat :=
  bits (64 * l) 35 0 + (match addrTier (64 * l) with
    | .pond => 0
    | .lake => (bits (64 * l) 41 40 - 1) * 2 ^ 36)

/-- The line's number within its die: four lines of every eighth 256-byte block. -/
def lineInDie (l : Nat) : Nat := tierOffset l / 2048 * 4 + l % 4

/-- The row that a line lies in, as a number of its own: the die, and the die's row. -/
def rowOf (l : Nat) : Nat := lineDie l + 256 * Config.dieRow (lineInDie l)

/-- The die and bank of a row, whose spare rows it takes (R263), as a number of their own. -/
def bankOf (row : Nat) : Nat := row % 256 + 256 * Config.dieBank (row / 256)

/-- The stack of a die and bank, whether its die is a Lake die, and the spare rows that such a die holds (R264). -/
def dieStack (g : Nat) : Nat := g % 256 / 16
def dieLake (g : Nat) : Bool := decide (g % 256 / 8 % 2 = 1)
def dieRows (lake : Bool) : Nat := if lake then 128 else 64

/-- Rows spared of a die and bank since the last repair analysis, and of its die. -/
def Stack.usedOf (x : Stack) (g : Nat) : Nat := ((x.sparesUsed.find? (fun e => decide (e.1 = g))).map (fun e => e.2)).getD 0
def Stack.usedIn (x : Stack) (g : Nat) : Nat :=
  (x.sparesUsed.filter (fun e => decide (e.1 % 256 = g % 256))).foldl (fun n e => n + e.2) 0

/-- Spare rows that the last repair analysis left in a die and bank. -/
def Stack.sparesOf (x : Stack) (g : Nat) : Nat :=
  ((x.bankSpares.find? (fun e => decide (e.1 = g))).map (fun e => e.2)).getD (if dieLake g then x.spare0.2 else x.spare0.1)

/-- Spare rows left in a die and bank; a die gives out no more than it holds (R264, assumption 11). -/
def Stack.leftIn (x : Stack) (g : Nat) : Nat := min (x.sparesOf g - x.usedOf g) (dieRows (dieLake g) - x.usedIn g)

/-! ## Rows to spare (R260, R263) -/

/-- Ask for a spare of the row of line `l`; `now` where an uncorrectable line or a GO asks for it outside any fallow
window. A row is queued once. -/
def State.queueSpare (s : State) (k l : Nat) (now : Bool) : State :=
  s.modStack k (fun x =>
    if x.spareQ.any (fun e => decide (rowOf e.1 = rowOf l)) then
      { x with spareQ := x.spareQ.map (fun e => if rowOf e.1 = rowOf l then (e.1, e.2 || now) else e) }
    else { x with spareQ := x.spareQ ++ [(l, now)] })

/-- The request of R260: with a live admission that leaves the slice no window it is refused with NO_FALLOW, and the row
waits for the admission's end. -/
def State.askSpare (s : State) (k l : Nat) : State :=
  let known := (s.stack k).spareQ.any (fun e => decide (rowOf e.1 = rowOf l))
  let s := s.queueSpare k l false
  if !known && s.noFallow (k / 2) 0x9 then
    s.report .gleaner { cause := Cause.NO_FALLOW, cls := Cls.contained, master := Master.fp 0 }
  else s

/-- One more line that the second layer has corrected (R260). -/
def State.countCE (s : State) (l : Nat) : State :=
  let k := addrStack (64 * l)
  match addrTier (64 * l) with
  | .pond => s.incFld (Reg.ctl.POND_CE k) 31 0
  | .lake => s.incFld (Reg.ctl.LAKE_CE k) 31 0

/-- A corrected line is counted, and its row may reach the threshold (R260). -/
def State.countCorrected (s : State) (l : Nat) : State :=
  let k := addrStack (64 * l)
  let s := s.countCE l
  let row := rowOf l
  let us := 1000000 * s.fld (Reg.rep.CE_WINDOW k) 23 0
  let old := (((s.stack k).ceRows.find? (fun e => decide (e.1 = row))).map (fun e => e.2)).getD []
  let n := (windowed s.time us old).length + 1
  let ts := old ++ [s.time]
  let s := s.modStack k (fun x => { x with ceRows := x.ceRows.filter (fun e => decide (e.1 ≠ row)) ++ [(row, ts)] })
  if s.fld (Reg.rep.CE_ROW_THRESH k) 7 0 ≤ n then s.askSpare k l else s

/-- DETAIL of a stack's memory event (R392). -/
def memDetail (l : Nat) : Nat := bits (64 * l) 35 6 + 2 ^ 30 * bits (64 * l) 41 40

/-- An uncorrectable line is counted (R269) and its row is to be spared at once (R261). -/
def State.countUE (s : State) (l : Nat) : State :=
  let k := addrStack (64 * l)
  let s := s.incFld (Reg.ctl.UE_COUNT k) 15 0
  if s.channelGone l then s else s.queueSpare k l true

/-- UE_ADDR takes the first uncorrectable line of an access (R261). -/
def State.setUEAddr (s : State) (l : Nat) : State :=
  let k := addrStack (64 * l)
  (s.setFld (Reg.ctl.UE_ADDR_LO k) 31 6 (bits (64 * l) 31 6)).setFld (Reg.ctl.UE_ADDR_HI k) 9 0 (bits (64 * l) 41 32)

/-- The report of an uncorrectable line against master `m` (R261). -/
def State.reportUE (s : State) (m l : Nat) : State :=
  s.report (.ctl (addrStack (64 * l)))
    { cause := Cause.MEM_UNCORRECTABLE, cls := Cls.contained, master := masterCode m, detail := memDetail l, inj := s.lineInjected l }

/-! ## Reads -/

/-- Lines as an access reads them: corrected lines counted, the first uncorrectable one found. -/
def State.scanLines (s : State) : List Nat → State × Option Nat
  | [] => (s, none)
  | l :: ls =>
    if s.lineBad l then
      let s := s.countUE l
      let r := State.scanLines s ls
      (r.1, some l)
    else
      let s := if s.lineCorrected l then s.countCorrected l else s
      State.scanLines s ls

/-- A read before its report: the data, or the first uncorrectable line. -/
def State.memScan (s : State) (a n : Nat) : State × Option Nat :=
  let r := s.scanLines (linesOf a n)
  match r.2 with
  | none => r
  | some l => (r.1.setUEAddr l, some l)

/-- Does a master sit on East (R19)? The Tally and the model's other nameless agents are device-global. -/
def masterEast (m : Nat) : Option Bool :=
  if 64 ≤ m then some (decide (76 ≤ m))
  else if m < 6 then some false
  else if m < 8 then none
  else if m < 0x10 then some (decide (12 ≤ m))
  else if m < 0x30 then some (decide (0x20 ≤ m))
  else some (decide (0x38 ≤ m))

/-- The bridge sluice between a master's die and a unit's (R399, R406): data goes to the unit at a write, to the master at a read. -/
def State.bridgeSluice (s : State) (m : Nat) (unitEast wr : Bool) (p : SluiceParity := .good) : State × Bool :=
  match masterEast m with
  | none => (s, false)
  | some e =>
    if e = unitEast then (s, false)
    else
      let q := s.sluiceInject Reg.global.page (if (if wr then unitEast else e) then 1 else 2) m
      if q.2 then q else q.1.sluiceParity p m

/-- Is an access from `s` lost at the sluice that left `q`: a data entry failed, or the machine has turned Fatal (R399)? -/
def State.entryLost (s : State) (q : State × Bool) : Bool := q.2 || (q.1.fatal && !s.fatal)

/-- Is injection armed in the bridge sluice that an access crosses? -/
def State.bridgeArmed (s : State) (m : Nat) (unitEast wr : Bool) : Bool :=
  match masterEast m with
  | none => false
  | some e => decide (e ≠ unitEast)
      && s.regBit (Reg.global.page + Reg.header.ERR_INJECT) (if (if wr then unitEast else e) then 1 else 2)

/-- The sluices on the way to a stack (R265, R399): an injected parity failure loses the access. -/
def State.stackSluice (s : State) (a m : Nat) (wr : Bool) : State × Bool :=
  let k := addrStack a
  let q := s.bridgeSluice m (decide (8 ≤ k)) wr
  if q.2 then q
  else match addrTier a with
    | .pond => q.1.sluiceInject (Reg.ctl.page k) 4 m
    | .lake => q.1.sluiceInject (Reg.ctl.page k) 5 m

/-- Did ERR_INJECT make an access fail that now fails (R405): a sluice on its way, or its first line beyond correction? -/
def State.accessInj (s : State) (m a n : Nat) (wr : Bool) : Bool :=
  let k := addrStack a
  s.bridgeArmed m (decide (8 ≤ k)) wr
    || s.regBit (Reg.ctl.page k + Reg.header.ERR_INJECT) (match addrTier a with
        | .pond => 4
        | .lake => 5)
    || (match (linesOf a n).find? s.lineBad with
        | some l => s.lineInjected l
        | none => false)

/-- A read of `n` bytes at `a` by master `m`; none where a line is uncorrectable, after its report. -/
def State.memRead (s : State) (m a n : Nat) : State × Option (List Byte) :=
  let q := s.stackSluice a m false
  if q.2 then (q.1, none)
  else
    let r := q.1.memScan a n
    match r.2 with
    | some l => (r.1.reportUE m l, none)
    | none => (r.1, some (r.1.rawBytes a n))

/-! ## Writes -/

/-- The bytes of a line that its enables name, with the check symbols of ERR_INJECT. -/
def State.storeLine (s : State) (l off : Nat) (d : List Byte) (en : List Bool) : State :=
  { s with mem := s.mem.wrMasked (64 * l + off) d en, memTag := s.memTag.wr l (s.writeTag l) }

/-- A read-modify-write of a line (R240, R249): the state, and whether the line was refused. -/
def State.rmwLine (s : State) (l off : Nat) (d : List Byte) (en : List Bool) : State × Bool :=
  if s.lineBad l then (s.countUE l, true)
  else
    let s := if s.lineCorrected l then s.countCorrected l else s
    (s.storeLine l off d en, false)

/-- Bytes `d` with enables `en` at offset `off` of line `l`: a whole line is not read first (R240). -/
def State.writeLine (s : State) (l off : Nat) (d : List Byte) (en : List Bool) : State × Bool :=
  if (decide (d.length = 64) && en.all (fun b => b)) && !s.channelGone l then (s.storeLine l off d en, false)
  else s.rmwLine l off d en

/-- The lines of a write, in ascending order; the first refused line. -/
def State.writeLines (s : State) (a : Nat) (d : List Byte) (en : List Bool) : List Nat → State × Option Nat
  | [] => (s, none)
  | l :: ls =>
    let lo := max a (64 * l)
    let hi := min (a + d.length) (64 * l + 64)
    let r := s.writeLine l (lo - 64 * l) ((d.drop (lo - a)).take (hi - lo)) ((en.drop (lo - a)).take (hi - lo))
    let q := State.writeLines r.1 a d en ls
    (q.1, if r.2 then some l else q.2)

/-- A write of bytes with enables (none: all on) by master `m`: the state, and whether every line was written. -/
def State.memWriteMasked (s : State) (m a : Nat) (d : List Byte) (en : List Bool) : State × Bool :=
  let q := s.stackSluice a m true
  if q.2 then (q.1, false)
  else
    let r := q.1.writeLines a d en (linesOf a d.length)
    match r.2 with
    | some l => ((r.1.setUEAddr l).reportUE m l, false)
    | none => (r.1, true)

/-- A write of whole bytes. -/
def State.memWrite (s : State) (m a : Nat) (d : List Byte) : State × Bool := s.memWriteMasked m a d []

/-! ## Spare rows and channels (R263, R264) -/

/-- DETAIL of a channel's retirement that no line brought about: the tier, at its lowest address (assumption 76). -/
def chanDetail : Tier → Nat
  | .pond => 0
  | .lake => 2 ^ 30

/-- A channel retires (R264): the report in class Retiring with the line that brought it about, the epoch. A slice in it ends first
(R409). -/
def State.retireChannel (s : State) (k : Nat) (t : Tier) (detail : Nat) (inj : Bool) : State :=
  let gone := match t with
    | .pond => (s.stack k).pondRetired
    | .lake => (s.stack k).lakeRetired
  if gone then s
  else if s.sliceInChannel k t then s.holdAct (.channel k t detail inj)
  else
    let s := s.modStack k (fun x =>
      match t with
      | .pond => { x with pondRetired := true }
      | .lake => { x with lakeRetired := true })
    (s.report (.ctl k) { cause := Cause.MEM_UNCORRECTABLE, cls := Cls.retiring, detail := detail, inj := inj }).advanceEpoch

/-- Lines of a row whose code state is marked. -/
def State.markedLines (s : State) (row : Nat) : List (Nat × BitVec 2) :=
  s.memTag.filter (fun e => decide (rowOf e.1 = row))

/-- Copy a row to its spare: a line beyond correction becomes zeros, every other keeps its bytes; a corrected one is counted (R260,
R262, R263 step 4). -/
def State.copyRow (s : State) (row : Nat) : State :=
  (s.markedLines row).foldl (fun s e =>
    let s := if 2 ≤ e.2.toNat then { s with mem := s.mem.wrBytes (64 * e.1) (List.replicate 64 0) } else s.countCE e.1
    { s with memTag := s.memTag.wr e.1 0 }) s

/-- Lines of a row beyond correction. -/
def State.lostLines (s : State) (row : Nat) : List Nat :=
  ((s.markedLines row).filter (fun e => decide (2 ≤ e.2.toNat))).map (fun e => e.1)

/-- Did injection mark a line of the row (R405)? -/
def State.rowInjected (s : State) (row : Nat) : Bool :=
  (s.markedLines row).any (fun e => decide (e.2.toNat = 1) || decide (e.2.toNat = 2))


/-- Spare the row of line `l` (R263); with no spare row left its channel retires (R264). -/
def State.spareRow (s : State) (k l : Nat) : State :=
  let x := s.stack k
  let t := addrTier (64 * l)
  let row := rowOf l
  let g := bankOf row
  if x.leftIn g = 0 then s.retireChannel k t (memDetail l) (s.rowInjected row)
  else
    let lost := s.lostLines row
    let s := s.copyRow row
    let s := s.modStack k (fun x =>
      { x with sparesUsed := x.sparesUsed.filter (fun e => decide (e.1 ≠ g)) ++ [(g, x.usedOf g + 1)],
               repairLog := x.repairLog ++ [(row, lost)],
               ceRows := x.ceRows.filter (fun e => decide (e.1 ≠ row)) })
    s.incFld (Reg.rep.ROWS_SPARED k) 15 0

end Sys2Proof.Machine
end

