-- ==== Sys2Proof/Machine/Tags.lean ====
section
/-! DEFINITION. The tag pools of R285 and R286: how many tags a pool has, which are held, which masters wait for one. -/

namespace Sys2Proof.Machine

/-- Tags of a pool. -/
def poolTags : TagPool → Nat
  | .host => 1024
  | .pond _ => 512
  | .lake _ => 256
  | .weir _ => 512

/-- Bytes per tag of a pool. -/
def poolUnit : TagPool → Nat
  | .host => 512
  | .pond _ => 2048
  | .lake _ => 1024
  | .weir _ => 256

/-- The pool of the channel that serves a device-memory address. -/
def chanPool (a : Nat) : TagPool :=
  match addrTier a with
  | .pond => .pond (Fin.ofNat 16 (addrStack a))
  | .lake => .lake (Fin.ofNat 16 (addrStack a))

/-- Requests that `n` bytes at `a` make, cut at multiples of the bytes per tag (a host read so crosses no 4 KiB boundary). -/
def cutCount (unit a n : Nat) : Nat := if n = 0 then 0 else (a + n - 1) / unit - a / unit + 1

/-- The pools of `n` bytes of device memory at `a`, with the requests on each: an access may run on into the next stack. -/
def memPools (a n : Nat) : List (TagPool × Nat) :=
  let e := (a / 2 ^ 36 + 1) * 2 ^ 36
  let k := min n (e - a)
  let part (a n : Nat) : List (TagPool × Nat) := if n = 0 then [] else [(chanPool a, cutCount (poolUnit (chanPool a)) a n)]
  part a k ++ part e (n - k)

/-- Two lists of needs as one, a pool named once. -/
def mergeNeeds (l m : List (TagPool × Nat)) : List (TagPool × Nat) :=
  m.foldl (fun l x =>
    if l.any (fun y => decide (y.1 = x.1)) then l.map (fun y => if y.1 = x.1 then (y.1, y.2 + x.2) else y) else l ++ [x]) l

/-- Tags a packet holds: one for each 256 bytes (R285, R313). -/
def tagsOf (k : Packet) : Nat := max 1 ((k.payload.length + 255) / 256)

/-- Tags of the port's pool that its packets hold. -/
def Port.tagsHeld (x : Port) : Nat := x.held.foldl (fun n h => n + tagsOf h.pkt) 0

/-- Tags of the pool that a Flume's elements hold. -/
def Flume.tagsOf (x : Flume) (y : TagPool) : Nat :=
  x.tags.foldl (fun n h => if h.pool = y then n + h.n else n) 0

/-- A pool as it stands; one that no master has waited for has no entry. -/
def State.poolState (s : State) (y : TagPool) : PoolState :=
  (s.pools.find? (fun z => decide (z.pool = y))).getD ⟨y, Master.none, [], []⟩

/-- Change a pool's entry. -/
def State.modPool (s : State) (y : TagPool) (g : PoolState → PoolState) : State :=
  { s with pools := s.pools.filter (fun z => decide (z.pool ≠ y)) ++ [g (s.poolState y)] }

/-- Tags of a pool that are held, or granted and not yet used. -/
def State.poolUsed (s : State) (y : TagPool) : Nat :=
  s.flumes.toList.foldl (fun n x => n + x.tagsOf y) 0 + (s.poolState y).granted.length
    + (match y with
       | .weir p => (s.port p).tagsHeld
       | _ => 0)

/-- Tags that a master finds in the pool: those granted to it, and the free ones where no master waits (R286). -/
def State.tagsFor (s : State) (m : Nat) (y : TagPool) : Nat :=
  (s.poolState y).granted.count m
    + (if (s.poolState y).waiting.isEmpty then poolTags y - s.poolUsed y else 0)

/-- A master that has no tag waits for one. -/
def State.joinPool (s : State) (m : Nat) (y : TagPool) : State :=
  if (s.poolState y).waiting.contains m then s else s.modPool y (fun z => { z with waiting := z.waiting ++ [m] })

/-- The master uses `n` tags: those granted to it first. -/
def State.useGrants (s : State) (m : Nat) (y : TagPool) (n : Nat) : State :=
  if (s.poolState y).granted.contains m then
    s.modPool y (fun z => { z with granted := (List.range n).foldl (fun l _ => l.erase m) z.granted })
  else s

/-- The master waits for no tag any more and gives back those granted to it. -/
def State.leavePools (s : State) (m : Nat) : State :=
  { s with pools := s.pools.map (fun z => { z with
      waiting := z.waiting.filter (fun k => decide (k ≠ m))
      granted := z.granted.filter (fun k => decide (k ≠ m)) }) }

/-- Has a master a tag of every pool that an access needs? -/
def State.tagsReady (s : State) (m : Nat) (l : List (TagPool × Nat)) : Bool := l.all (fun y => decide (0 < s.tagsFor m y.1))

/-- The master joins every pool that has no tag for it. -/
def State.joinPools (s : State) (m : Nat) (l : List (TagPool × Nat)) : State :=
  l.foldl (fun t y => if s.tagsFor m y.1 = 0 then t.joinPool m y.1 else t) s

/-- The master uses one tag of each pool. -/
def State.useTags (s : State) (m : Nat) (l : List (TagPool × Nat)) : State := l.foldl (fun s y => s.useGrants m y.1 1) s

/-- Accesses of master `m` that return in their own command: their tags come back at once, so that one of each pool serves all the
requests in turn; without one the master waits. -/
def State.withPools (s : State) (m : Nat) (l : List (TagPool × Nat)) (go : State → State) : State :=
  if s.tagsReady m l then go (s.useTags m l) else s.joinPools m l

/-- The same for `n` bytes of device memory at `a`. -/
def State.withTags (s : State) (m a n : Nat) (go : State → State) : State := s.withPools m (memPools a n) go

/-- Must an access of the list (address, bytes) wait for its memory? -/
def State.anyWaits (s : State) (l : List (Nat × Nat)) : Bool := l.any (fun x => s.memWaits x.1 x.2)

/-- The pools of a list of accesses. -/
def accPools (l : List (Nat × Nat)) : List (TagPool × Nat) := l.foldl (fun ps x => mergeNeeds ps (memPools x.1 x.2)) []

/-- What needs the accesses of `l` is done by master `m` once none of them waits for its memory and each pool has a tag for it; until
then nothing of it is done. -/
def State.withAccess (s : State) (m : Nat) (l : List (Nat × Nat)) (go : State → State) : State :=
  if s.anyWaits l then s else s.withPools m (accPools l) go

/-- The next waiting master after the last served, in ascending ID. -/
def PoolState.pick (y : PoolState) : Option Nat :=
  match (y.waiting.filter (fun m => decide (y.last < m))).min? with
  | some m => some m
  | none => y.waiting.min?

/-- One freed tag goes to the next waiting master in round-robin order (R286). -/
def State.grantTag (s : State) (y : TagPool) : State :=
  if poolTags y ≤ s.poolUsed y then s
  else match (s.poolState y).pick with
    | none => s
    | some m => s.modPool y (fun z => { z with last := m, waiting := z.waiting.filter (fun k => decide (k ≠ m)), granted := z.granted ++ [m] })

end Sys2Proof.Machine
end

