-- ==== Sys2Proof/Machine/Abort.lean ====
section
/-! DEFINITION. Tokens and signals as they arrive, and what ends work early: segment aborts (R201), step aborts (R205, R331),
late faults (R333), Flume task aborts (R292), run-time faults of an engine, retirements of engines and Flumes. -/

namespace Sys2Proof.Machine

/-! ## Tokens and signals (R182 to R184, R282 to R284) -/

/-- Token counter `t` of barn `b`. -/
def State.token (s : State) (b t : Nat) : Nat := s.fld (Reg.barn.TOKEN b t) 15 0

/-- Add tokens to a barn's counter; none where it would pass 65,535 (R184). -/
def State.addToken (s : State) (b t n : Nat) : Option State :=
  if 65535 < s.token b t + n then none else some (s.setFld (Reg.barn.TOKEN b t) 15 0 (s.token b t + n))

/-- TOKIN of Flume `f`. -/
def State.tokin (s : State) (f : Nat) : Nat := s.fld (Reg.flume.TOKIN f) 15 0

/-- Add tokens to a Flume's TOKIN; none where it would pass 65,535 (R283). A task also keeps what TOKIN would be without its
own PRELOAD and gates (R292 step 5). -/
def State.addTokin (s : State) (f n : Nat) : Option State :=
  if 65535 < s.tokin f + n then none
  else
    let s := s.setFld (Reg.flume.TOKIN f) 15 0 (s.tokin f + n)
    some (s.modFlume f (fun x => { x with cur := x.cur.map (fun t => { t with tokBase := satAdd 16 t.tokBase n }) }))

/-- Deliver a signal (R183, R284): 0 barn token, 1 Flume token input, 2 host event, 3 none. -/
def State.deliver (s : State) (kind target token n : Nat) : Option State :=
  match kind with
  | 0 => s.addToken target token n
  | 1 => s.addTokin target n
  | 2 => some (s.msix target)
  | _ => some s

/-! ## Engines and bins -/

/-- A bin made INVALID (R69); what it held is not defined from then on (R72). -/
def Bin.invalidate (x : Bin) (r : InvReason) : Bin :=
  { x with state := .invalid, inv := r, content := [], rowSum := [], rowAbs := [], colSum := [], colAbs := [], corner := 0 }

/-- An engine after the abort of its segment (R201 steps 2 and 3): bins INVALID, queues and armings empty. -/
def Engine.clear (x : Engine) : Engine :=
  { x with bins := x.bins.map (fun b => b.invalidate .abort), iq := Vector.replicate 8 [], oq := Vector.replicate 4 [],
           arrQ := [], winQ := [], movQ := [], gens := Vector.replicate 8 ⟨none, none⟩, colF := Feeder.reset,
           rowF := Feeder.reset, drain := none, holds := [], settle := [] }

/-- An engine leaves service (R92, R213). -/
def State.dropEngine (s : State) (e : Nat) : State := s.modEngine e Engine.clear

/-- An engine retires (R88, R410): the report in class Retiring, the epoch. A slice in it ends first (R409). Its queues, armings and
drain are emptied as it retires, so that its levels read 0 from then on (assumption 73). -/
def State.retireEngine (s : State) (e cause : Nat) (detail : Nat := 0) (inj : Bool := false) : State :=
  if (s.engine e).retired then s
  else if s.sliceInEngine e then s.holdAct (.engine e cause detail inj)
  else
    let n := (windowed s.time (1000 * s.fld (Reg.engine.CHK_WINDOW e) 23 0) (s.engine e).chkTimes).length
    let m := (s.barn (e / 8)).swapped
    let s := (s.dropEngine e).modEngine e (fun x => { x with retired := true, mapAt := m, inWindowAt := n })
    (s.report (.engine e) { cause := cause, cls := Cls.retiring, detail := detail, inj := inj }).advanceEpoch

/-- A Flume retires (R396): it stands IDLE. -/
def State.retireFlume (s : State) (f cause : Nat) : State :=
  if (s.flume f).retired then s
  else if s.sliceHoldsFlume f then s.holdAct (.flume f cause)
  else
    let s := (s.leavePools (Master.flume f)).modFlume f (fun x => { x with
      retired := true, state := .idle, cur := none, nxt := none, fetch := none, bulkTodo := [], hostDue := [], nextAt := none,
      tags := [], waitTag := false, heldNext := false })
    (s.report (.flume f) { cause := cause, cls := Cls.retiring, detail := f }).advanceEpoch

/-! ## Segment aborts (R200 to R203) -/

/-- Add the WAITs' N back to the counters (R201 step 4), saturating (assumption 13). -/
def State.addBack (s : State) (b : Nat) : State :=
  ((s.barn b).waitSums.zipIdx).foldl (fun s x => s.addFld (Reg.barn.TOKEN b x.2) 15 0 x.1) s

/-- Units of a barn taken off line leave service at its boundary, or as it comes to stand IDLE (R213). -/
def State.applyBarnOffline (s : State) (b : Nat) : State :=
  let off := (s.barn b).offline
  let s := if off then s.modBarn b (fun x => { x with offApplied := true }) else s
  (List.range 8).foldl (fun s i =>
    let e := 8 * b + i
    let x := s.engine e
    if (x.offline || off) && !x.offApplied then (s.dropEngine e).modEngine e (fun y => { y with offApplied := true }) else s) s

/-- The sequencer after an abort: IDLE with PENDING = 1 (R201 step 5), and no GO owed but for an abort that waited. No fetch is next
then, and SEQ_PC keeps the word it stood at (assumption 105). -/
def Barn.stopped (x : Barn) : Barn :=
  { x with phase := .idle, boundary := none, waiting := none, fallow := none, sigQ := [],
           pendingRestart := true, restartDue := x.restartDue && x.abortHeld.isSome, goHeld := none, replaying := false,
           pageHalt := false, suppress := 0,
           waitSums := List.replicate 16 0, popped := [] }

/-- Clear the queues of every engine of a barn (R201 step 3). -/
def State.clearEngines (s : State) (b : Nat) : State :=
  (s.barnEngines b).foldl (fun s e => s.dropEngine e) s

/-- The abort itself (R201). -/
def State.segAbortNow (s : State) (b : Nat) : State :=
  ((((s.clearEngines b).addBack b).leavePools (Master.barn b)).modBarn b Barn.stopped).applyBarnOffline b

/-- A segment abort of a barn: none where no segment runs; after the slice where one runs (R409). -/
def State.segAbortOnly (s : State) (b : Nat) : State :=
  if (s.barn b).phase = .idle then s
  else if s.sliceAt b then
    s.modBarn b (fun x => { x with abortHeld := match x.abortHeld with
      | some st => some st
      | none => some false })
  else s.segAbortNow b

/-! ## Step aborts (R205 to R207, R294, R331) -/

/-- The barn's part of a step abort: back to its step snapshot and step token snapshot; every SIGNAL of the step is sent
again, so SEG_SIGNALS restarts at 0 (R206). -/
def State.barnStepAbort (s : State) (b : Nat) : State :=
  let s := if (s.barn b).phase = .idle then s else
    (((s.clearEngines b).leavePools (Master.barn b)).modBarn b Barn.stopped).applyBarnOffline b
  let s := ((s.barn b).stepTokens.zipIdx).foldl (fun s x => s.setFld (Reg.barn.TOKEN b x.2) 15 0 x.1.toNat) s
  s.modBarn b (fun x =>
    match x.stepSnap with
    | some sn => { x with snap := sn, pendingRestart := true, restartDue := false, goHeld := none, stepAborted := true,
                          segSignals := 0, suppress := 0, ccSave := none, abortHeld := none }
    | none => { x with pendingRestart := false, restartDue := false, goHeld := none, stepAborted := true, segSignals := 0,
                       suppress := 0, ccSave := none, abortHeld := none })

/-- The barn's part, after its slice where one runs (R409). -/
def State.barnStepAbortLater (s : State) (b : Nat) : State :=
  if s.sliceAt b then s.modBarn b (fun x => { x with abortHeld := some true }) else s.barnStepAbort b

/-- Sent signals of a task's complete groups (R284): groups whose elements all lie below `prefixDone`. -/
def Task.groupsDone (t : Task) : Nat := if t.d.sigEvery = 0 then 0 else t.prefixDone / t.d.sigEvery

/-- The task with one signal more behind it: suppressed, received by its consumers, or neither. -/
def Task.signal (t : Task) (suppressed received : Bool) : Task :=
  { t with signalled := t.signalled + 1, suppress := if suppressed then t.suppress - 1 else t.suppress,
           recv := if received then t.recv + 1 else t.recv }

/-- One signal of a task (R284): suppressed after a restart (R293), or delivered. One that would overflow its counter is refused
and freezes the Flume (R283). -/
def State.flumeSignal (s : State) (f : Nat) (t : Task) : State :=
  let set (s : State) (u : Task → Task) : State := s.modFlume f (fun x => { x with cur := x.cur.map u })
  if t.suppress ≠ 0 then set s (fun t => t.signal true false)
  else
    match s.deliver t.d.sigKind t.d.sigTarget t.d.sigToken t.d.sigN with
    | some s' => set s' (fun t => t.signal false (decide (t.d.sigKind ≠ 3)))
    | none =>
      let s := set s (fun t => t.signal false false)
      let s := s.report (.flume f) { cause := Cause.FORMAT, cls := Cls.contained, master := Master.flume f, detail := f }
      s.freeze (Master.flume f) Cause.FORMAT

/-- Send the signals of the groups complete at an abort (R292 steps 2 and 4), until one freezes the Flume. -/
def State.sendGroups (s : State) (f : Nat) : Nat → State
  | 0 => s
  | n + 1 =>
    match (s.flume f).cur with
    | none => s
    | some t =>
      if t.groupsDone ≤ t.signalled ∨ s.frozen (Master.flume f) then s else State.sendGroups (s.flumeSignal f t) f n

/-- The host side of a descriptor's element. -/
def FDesc.hostAddr (d : FDesc) (x : FElem) : Option Nat :=
  if d.srcSpace = 0 then some x.src.toNat else if d.dstSpace = 0 then some x.dst.toNat else none

/-- Has the Flume a host request issued and not complete in the range? -/
def State.usesRange (s : State) (f va n : Nat) : Bool :=
  match (s.flume f).cur with
  | none => false
  | some t =>
    decide ((s.flume f).state ≠ .aborted) && (List.range (t.issued - t.prefixDone)).any (fun i =>
      let e := t.prefixDone + i
      !t.ackedAhead.contains e && (match t.d.hostAddr (t.d.element e) with
        | some a => decide (a < va + n) && decide (va < a + t.d.elem)
        | none => false))

/-- Invalidations complete once no request uses their range (R290). -/
def State.finishInval (s : State) : State :=
  let busy (x : BitVec 64 × Nat) : Bool := (List.range 32).any (fun f => s.usesRange f x.1.toNat x.2)
  { s with host := { s.host with
      inval := s.host.inval.filter busy
      out := s.host.out ++ ((s.host.inval.filter (fun x => !busy x)).map (fun x => .invalidationDone x.1)) } }

/-- The Flume holds no tag, and waits for none. -/
def State.dropTags (s : State) (f : Nat) : State :=
  (s.leavePools (Master.flume f)).modFlume f (fun x => { x with tags := [], waitTag := false })

/-- A Flume leaves service (R213). -/
def State.flumeOffNow (s : State) (f : Nat) : State :=
  (s.dropTags f).modFlume f (fun x => { x with
    offApplied := true, state := .idle, cur := none, nxt := none, fetch := none, bulkTodo := [], hostDue := [], nextAt := none,
    boundaryHeld := false, heldNext := false })

/-- A Flume that has come to stand IDLE or ABORTED leaves service where its removal waits (R213), unless a slice of it runs (R409). -/
def State.flumeOffIfDue (s : State) (f : Nat) : State :=
  let x := s.flume f
  if x.offline && !x.offApplied && (decide (x.state = .idle) || decide (x.state = .aborted)) && !s.sliceInUnit 4 f then s.flumeOffNow f
  else s

/-- WATERMARK of a task whose first `done` elements have completed (R292 step 3). -/
def State.setWatermark (s : State) (f done : Nat) : State :=
  if done = 0 then s.setFld (Reg.flume.WATERMARK_HI f) 31 31 1
  else (s.setReg (Reg.flume.WATERMARK_LO f) (BitVec.ofNat 32 (done - 1))).setReg (Reg.flume.WATERMARK_HI f)
    (BitVec.ofNat 32 ((done - 1) / 2 ^ 32 % 2 ^ 16))

/-- Steps 3 to 5 of R292, once the elements issued have completed, but for those that failed: the addresses, WATERMARK, signals,
TOKIN. -/
def State.flumeStop (s : State) (f : Nat) (a : FAbort) : State :=
  match (s.flume f).cur with
  | none =>
    s.modFlume f (fun x => { x with state := .aborted, fetch := none, waitVa := none, heldNext := false })
  | some t =>
    let done := max (a.failed.foldl min t.issued) t.prefixDone
    let s := s.modFlume f (fun x => { x with
      cur := some { t with prefixDone := done, ackedAhead := [] }, bulkTodo := [], waitVa := none, gated := false, hgWait := false })
    let s := s.setWatermark f done
    let s := match a.va with
      | some va => (s.setFld (Reg.flume.FAULT_VA_LO f) 31 12 (bits va 31 12)).setReg (Reg.flume.FAULT_VA_HI f)
          (BitVec.ofNat 32 (va / 2 ^ 32))
      | none => s
    let s := if a.step || s.frozen (Master.flume f) then s else s.sendGroups f (t.d.count + 1)
    let base := ((s.flume f).cur.map (fun t => t.tokBase)).getD 0
    let recv := ((s.flume f).cur.map (fun t => t.recv)).getD 0
    let s := (s.setFld (Reg.flume.TOKIN f) 15 0 base).setFld (Reg.flume.FAULT_INFO f) 31 16 (min recv 65535)
    s.modFlume f (fun x => { x with state := .aborted, fetch := none, heldNext := false })

/-- Has the barn's segment popped a run of the Flume's stream, or taken tokens of its counter (R208; assumption 14)? -/
def State.hasPopped (s : State) (f : Nat) (d : FDesc) : Bool :=
  (s.barn d.sigTarget).popped.contains f || decide ((s.barn d.sigTarget).waitSums.getD d.sigToken 0 ≠ 0)

/-- Does the descriptor signal a barn whose segment runs? -/
def State.feedsBarn (s : State) (d : FDesc) : Bool :=
  decide (d.sigKind = 0) && decide (d.sigEvery ≠ 0) && decide ((s.barn d.sigTarget).phase ≠ .idle)

/-- Step 7 of R292: a barn whose segment has popped runs of the stream aborts, another halts at its next boundary (R208). -/
def State.consumers (s : State) (f : Nat) (d : FDesc) : State :=
  if s.feedsBarn d then
    if s.hasPopped f d then (s.modBarn d.sigTarget (fun x => { x with escalated := false })).segAbortOnly d.sigTarget
    else s.modBarn d.sigTarget (fun x => { x with pageHalt := true })
  else s

/-- The barn that step 7 must escalate (R203): its segment has handed work on. -/
def State.consumerHanded (s : State) (f : Nat) (d : FDesc) : Bool := s.feedsBarn d && s.hasPopped f d && (s.barn d.sigTarget).handed

/-- Does a Flume take part in a step abort (R294; assumption 15)? -/
def State.flumeOfStep (s : State) (f : Nat) : Bool :=
  let x := s.flume f
  !x.retired && !x.offApplied && (decide (x.state = .active) || decide (x.state = .activeNext)
    || (decide (x.state = .idle) && (s.regBit (Reg.flume.SNAP_CUR_HI f) 31 || s.regBit (Reg.flume.SNAP_NEXT_HI f) 31)))

/-- An abort of a task begins (R292 steps 1 to 3): the Flume issues nothing more; what it has issued completes first, the requests of a
bulk element that wait for tags too. A fetch ends, and the slot it reserved keeps its address. -/
def State.flumeHalt (s : State) (f : Nat) (a : FAbort) : State :=
  let out := !(s.flume f).bulkTodo.isEmpty
  let s := if out then s else s.leavePools (Master.flume f)
  s.modFlume f (fun x => { x with
    abortHeld := some a, nextAt := if x.nxt.isSome then none else x.nextAddr, fetch := none, waitVa := none
    waitTag := x.waitTag && out })

/-- Has everything that the Flume issued come to its end: no request waits for a tag or for its answer? -/
def Flume.drained (x : Flume) : Bool := x.bulk.isEmpty && x.bulkTodo.isEmpty && x.hostDue.isEmpty

/-- A cause that firmware never restarts a task after (R293). -/
def FAbort.hostOnly (a : FAbort) : Bool := decide (a.cause = Cause.MEM_UNCORRECTABLE) || decide (a.cause = Cause.HOST_ABORT)

/-- The Flume's step abort once nothing it issued is outstanding (R294). -/
def State.flumeStepEnd (s : State) (f : Nat) (a : FAbort) : State :=
  let s := (s.flumeStop f a).dropTags f
  (s.modFlume f (fun x => { x with abortHeld := none, abortCause := none })).finishInval.flumeOffIfDue f

/-- The Flume's part of a step abort: FP-B is to restart it, unless its task stands aborted for a cause that only the host restarts. -/
def State.flumeStepAbort (s : State) (f : Nat) : State :=
  let x := s.flume f
  match x.abortHeld with
  | some a => if a.hostOnly then s else s.modFlume f (fun x => { x with stepAborted := true })
  | none =>
    if s.flumeOfStep f then
      let s := (s.flumeHalt f { cause := 0, step := true }).modFlume f (fun x => { x with stepAborted := true })
      if x.drained then s.flumeStepEnd f ((s.flume f).abortHeld.getD { cause := 0, step := true }) else s
    else if x.state = .aborted then
      (match x.abortCause with
       | some c => if c = Cause.MEM_UNCORRECTABLE ∨ c = Cause.HOST_ABORT then s else s.modFlume f (fun x => { x with stepAborted := true })
       | none => s.modFlume f (fun x => { x with stepAborted := true }))
    else s

/-- 64-byte units of a packet or a row's payload. -/
def packetUnits (n : Nat) : Nat := (16 + n + 63) / 64

/-- Remove a job's REDUCE state from a port (R331 step 2); `gatherOnly` removes only what it holds for the all-gather records that
`ofJob` names (R333). -/
def Port.dropJob (x : Port) (j : Nat) (ofJob : Nat → Bool) (gatherOnly : Bool) : Port :=
  let mine (p : Packet) : Bool :=
    decide (p.fields.cls = 0) && decide (p.fields.job = j) && (!gatherOnly || ofJob p.fields.coll)
  { x with txPk := modAt x.txPk 0 (fun l => l.filter (fun p => !mine p)),
           held := x.held.filter (fun h => !mine h.pkt),
           localRows := if gatherOnly then x.localRows else x.localRows.filter (fun r => !ofJob r.coll),
           upRows := if gatherOnly then x.upRows else x.upRows.filter (fun r => !ofJob r.coll) }

/-- Receive credit of `units` 64-byte units of class index `i` is given back, and the new count sent (R304). -/
def State.giveCredit (s : State) (p i units : Nat) : State :=
  if units = 0 then s
  else
    let s := s.modPort p (fun x => { x with granted := x.granted.modify i (fun g => g + BitVec.ofNat 16 units) })
    let n := ((s.port p).granted.getD i 0).toNat
    s.sendSym p (if i = 0 then symCredit 1 0 n else if i = 1 then symCredit 2 0 n else if i = 2 then symCredit 3 0 n
      else symCredit 0 (i - 3) n)

/-- Is record `i` of the applied table of job `j`? -/
def State.recOfJob (s : State) (j i : Nat) : Bool := decide (i < s.collCount) && decide ((s.collRec i).job = j)

/-- Discard a job's REDUCE state, or its all-gather state only. The step buffer's room goes back to the partner. -/
def State.dropJobState (s : State) (j : Nat) (gatherOnly : Bool) : State :=
  let ofJob (i : Nat) : Bool := s.recOfJob j i && (!gatherOnly || decide ((s.collRec i).kind = 2))
  let freed (x : Port) : Nat := if gatherOnly then 0
    else (x.upRows.filter (fun r => ofJob r.coll)).foldl (fun n r => n + packetUnits r.data.length) 0
  let old := s.ports
  let s := { s with ports := s.ports.map (fun x => x.dropJob j ofJob gatherOnly),
                    coll := if gatherOnly then s.coll.map (fun c => if ofJob c.idx then
                      { c with agStarted := false, agToSend := 0, agTacked := 0, agWritten := 0 } else c)
                      else s.coll.filter (fun c => !ofJob c.idx) }
  old.toList.zipIdx.foldl (fun s x => s.giveCredit x.2 (3 + j) (freed x.1)) s

/-- Ports that carry a job's ABORT: those of the verdict record of its slot-1 map where it has one (R348), else every port of the
job (R331); a late fault takes every port (R333). -/
def State.abortPorts (s : State) (j : Nat) (late : Bool) : List Nat :=
  match s.verdictRec j with
  | some (_, r) => if late then s.jobPorts j else if r.send = r.recv then [r.send] else [r.send, r.recv]
  | none => s.jobPorts j

/-- ABORT on the ports of a job (R331 step 1, R333 step 2, R348). -/
def State.sendAborts (s : State) (j cause origin : Nat) (late : Bool) : State :=
  (s.abortPorts j late).foldl (fun s p => s.sendSym p (symAbort j cause s.step10 origin late)) s

/-- A report of R333 is made. -/
def State.sayLate (s : State) (r : LateReport) : State :=
  s.report (match r.site with
    | .port p => .port p
    | .ctl k => .ctl k
    | .spring => .spring
    | .engine e => .engine e
    | .barn b => .barn b) { cause := r.cause, cls := r.cls, master := r.master, detail := r.detail, inj := r.inj }

/-- The reports that a job still holds are made. -/
def State.sayHeld (s : State) (j : Nat) : State :=
  ((s.job j).lateReports.foldl (fun s r => s.sayLate r) s).modJob j (fun x => { x with lateReports := [] })

/-- A job's part of a step abort (R331); `own` where the cause is this module's. The first recorded cause is kept. -/
def State.jobAbort (s : State) (j cause origin : Nat) (own : Bool) : State :=
  if (s.job j).aborted then s
  else
    let s := (s.sayHeld j).modJob j (fun x =>
      { x with
        aborted := true, cause := cause, origin := origin, causeHeld := own, nf := false, ready := false, passed := false,
        heldVerdict := none, heldResume := none, lateCause := none })
    let s := s.dropJobState j false
    s.sendAborts j cause origin false

/-- Live spans are voided by a step abort (R225). -/
def State.voidSpan (s : State) (b : Nat) : State :=
  match s.tally.spans[b]? with
  | none => s
  | some sp =>
    if sp.live && sp.released then
      { s with tally := { s.tally with
          spans := s.tally.spans.setIfInBounds b { sp with released := false, voided := true, timer := 0, segs := 0 } } }
    else s

/-- Jobs that hold a record of the applied table. -/
def State.liveJobs (s : State) : List Nat := (List.range 16).filter (fun j => s.jobLive j)

/-- A step abort (R205; assumption 16): every job of the module that has not committed to its step, every barn but those of a
committed job, every Flume of the step. `force` is a job whose partner's ABORT aborts it even after it committed (R333). -/
def State.stepAbort (s : State) (cause origin : Nat) (own : Bool) (force : Option Nat) : State :=
  let keep (j : Nat) : Bool := (s.job j).passed && decide (force ≠ some j)
  let jobs := s.liveJobs.filter (fun j => !keep j)
  let barns := (List.range 8).filter (fun b => !(s.jobLive (s.barnJob b false) && keep (s.barnJob b false)))
  let s := jobs.foldl (fun s j => s.jobAbort j cause origin own) s
  let s := barns.foldl (fun s b => (s.voidSpan b).barnStepAbortLater b) s
  let s := (List.range 32).foldl (fun s f => s.flumeStepAbort f) s
  { s with lsdPending := none }

/-! ## Late faults (R333) -/

/-- A late fault of a job runs: ABORT with LATE = 1, the all-gathers aborted. -/
def State.lateRun (s : State) (j cause origin : Nat) (own : Bool) : State :=
  if (s.job j).late then s
  else
    let s := s.modJob j (fun x => { x with late := true, cause := cause, origin := origin, causeHeld := own, heldResume := none })
    let s := s.dropJobState j true
    s.sendAborts j cause origin true

/-- A cause met after the job committed, with its report: both wait until lap 1 of the verdict has come; it is then a late fault.
The first cause stands. -/
def State.lateFault (s : State) (j cause : Nat) (r : Option LateReport) : State :=
  if 2 ≤ (s.job j).phase then ((r.toList).foldl (fun s r => s.sayLate r) s).lateRun j cause s.moduleId true
  else s.modJob j (fun x => { x with lateCause := some (x.lateCause.getD cause), lateReports := x.lateReports ++ r.toList })

/-- Lap 1 has come: what the job held is reported and becomes a late fault. A partner's late fault may have come first. -/
def State.lateHeld (s : State) (j : Nat) : State :=
  match (s.job j).lateCause with
  | none => s
  | some c =>
    let s := (s.sayHeld j).modJob j (fun x => { x with lateCause := none })
    if (s.job j).late then
      (if (s.job j).causeHeld then s else s.modJob j (fun x => { x with cause := c, origin := s.moduleId, causeHeld := true }))
    else s.lateRun j c s.moduleId true

/-- A cause that aborts the step (R205, R333), with the report of it that its own rule asks for. With a job named, that job decides
whether it is late; otherwise it is late for every committed job and a step abort for the others. -/
def State.stepFault (s : State) (cause : Nat) (job : Option Nat) (r : Option LateReport := none) : State :=
  let say (s : State) : State := (r.toList).foldl (fun s r => s.sayLate r) s
  match job with
  | some j =>
    if (s.job j).passed then s.lateFault j cause r else (say s).stepAbort cause s.moduleId true none
  | none =>
    let passed := s.liveJobs.filter (fun j => (s.job j).passed)
    let open' := s.liveJobs.filter (fun j => !(s.job j).passed)
    if passed.isEmpty || !open'.isEmpty then
      (passed.foldl (fun s j => s.lateFault j cause none) (say s)).stepAbort cause s.moduleId true none
    else
      let s := passed.head?.elim s (fun j => s.lateFault j cause r)
      passed.tail.foldl (fun s j => s.lateFault j cause none) s

/-! ## Aborts that may escalate -/

/-- A segment abort with its cause and the report of it (R201); it escalates where the segment has handed work on (R203), and the report
then waits with a cause that waits (R333). -/
def State.segAbort (s : State) (b cause : Nat) (r : Option LateReport := none) : State :=
  let say (s : State) : State := (r.toList).foldl (fun s r => s.sayLate r) s
  if (s.barn b).phase = .idle then say s
  else if (s.barn b).handed then
    let s := s.modBarn b (fun x => { x with escalated := true })
    let s := s.stepFault cause none r
    s.segAbortOnly b
  else ((say s).modBarn b (fun x => { x with escalated := false })).segAbortOnly b

/-- The end of a task's abort (R292): steps 3 to 7, and the freeze of R277. -/
def State.flumeAbortEnd (s : State) (f : Nat) (a : FAbort) : State :=
  let d := (s.flume f).cur.map (fun t => t.d)
  let s := (s.flumeStop f a).dropTags f
  let s := s.modFlume f (fun x => { x with abortHeld := none, abortCause := some a.cause })
  let s := s.report (.flume f) { cause := a.cause, cls := Cls.contained, master := Master.flume f, detail := f, inj := a.inj }
  let s := if a.cause = Cause.FORMAT then s.freeze (Master.flume f) Cause.FORMAT else s
  let s := match d with
    | none => s
    | some d => if s.consumerHanded f d then s.segAbort d.sigTarget a.cause else s.consumers f d
  s.finishInval.flumeOffIfDue f

/-- An abort that waited ends once nothing that the Flume issued is outstanding. -/
def State.flumeSettle (s : State) (f : Nat) : State :=
  match (s.flume f).abortHeld with
  | some a => if (s.flume f).drained then (if a.step then s.flumeStepEnd f a else s.flumeAbortEnd f a) else s
  | none => s

/-- A task aborts (R292). An element that fails while an abort waits is one more that has not completed. -/
def State.flumeAbort (s : State) (f : Nat) (a : FAbort) : State :=
  let s := match (s.flume f).abortHeld with
    | some h => s.modFlume f (fun x => { x with abortHeld := some { h with failed := h.failed ++ a.failed } })
    | none => s.flumeHalt f a
  s.flumeSettle f

/-- A run-time fault of an engine (R161, R165, R62): the report in class Contained, the segment aborts, the barn sequencer
freezes. -/
def State.engineFault (s : State) (e cause : Nat) (inj : Bool := false) : State :=
  let b := e / 8
  (s.segAbort b cause (some ⟨.engine e, cause, Cls.contained, inj, Master.barn b, 0⟩)).freeze (Master.barn b) cause

/-- A fault of a barn's work (R261, R190): the segment aborts, the sequencer freezes. -/
def State.barnFault (s : State) (b cause : Nat) (r : Option LateReport := none) : State :=
  (s.segAbort b cause r).freeze (Master.barn b) cause

/-- A draw meets a seed register whose parity fails (R122): the report, and the step aborts. -/
def State.springFault (s : State) (inj : Bool) : State :=
  s.stepFault Cause.MEM_UNCORRECTABLE none (some ⟨.spring, Cause.MEM_UNCORRECTABLE, Cls.contained, inj, Master.none, 0⟩)

end Sys2Proof.Machine
end

