-- ==== Sys2Proof/Machine/Formats.lean ====
section
/-! DEFINITION. Number formats (R94 to R106): exact values, decoding and rounding for every format code, FP32 and binary64
arithmetic (one IEEE rounding of the exact result, NaN canonical by R103), the W36 running sum (R100 to R107), reduction
blocks (R109 to R113). -/

namespace Sys2Proof

/-- A value without error: NaN, an infinity, or (−1)^neg × m × 2^e. -/
inductive Val where
  | nan
  | inf (neg : Bool)
  | fin (neg : Bool) (m : Nat) (e : Int)
deriving DecidableEq, Repr

namespace Val

def zero : Val := .fin false 0 0
def ofNat (n : Nat) : Val := .fin false n 0
def ofInt (i : Int) : Val := .fin (decide (i < 0)) i.natAbs 0
/-- 2^e. -/
def pow2 (e : Int) : Val := .fin false 1 e

def isFinite : Val → Bool
  | .fin _ _ _ => true
  | _ => false
def isNaN : Val → Bool
  | .nan => true
  | _ => false
/-- A zero of either sign. -/
def isZero : Val → Bool
  | .fin _ m _ => decide (m = 0)
  | _ => false

def neg : Val → Val
  | .nan => .nan
  | .inf n => .inf (!n)
  | .fin n m e => .fin (!n) m e
def abs : Val → Val
  | .nan => .nan
  | .inf _ => .inf false
  | .fin _ m e => .fin false m e

/-- Signed significand of a finite value at the exponent `k ≤ e`. -/
def sig (n : Bool) (m : Nat) (e k : Int) : Int :=
  let v : Int := (m * 2 ^ (e - k).toNat : Nat)
  if n then -v else v

/-- Exact product (R102). -/
def mul : Val → Val → Val
  | .nan, _ => .nan
  | _, .nan => .nan
  | .inf a, .inf b => .inf (a != b)
  | .inf a, .fin b m _ => if m = 0 then .nan else .inf (a != b)
  | .fin a m _, .inf b => if m = 0 then .nan else .inf (a != b)
  | .fin a m e, .fin b n f => .fin (a != b) (m * n) (e + f)

/-- Exact sum (R102): a zero sum is +0 unless both addends are −0. -/
def add : Val → Val → Val
  | .nan, _ => .nan
  | _, .nan => .nan
  | .inf a, .inf b => if a = b then .inf a else .nan
  | .inf a, .fin _ _ _ => .inf a
  | .fin _ _ _, .inf b => .inf b
  | .fin a m e, .fin b n f =>
    let k := if e ≤ f then e else f
    let t := sig a m e k + sig b n f k
    if t = 0 then .fin (a && b && decide (m = 0) && decide (n = 0)) 0 0 else .fin (decide (t < 0)) t.natAbs k

def sub (x y : Val) : Val := add x y.neg

/-- `x < y` for values that are not NaN. -/
def lt : Val → Val → Bool
  | .nan, _ => false
  | _, .nan => false
  | .inf a, .inf b => a && !b
  | .inf a, .fin _ _ _ => a
  | .fin _ _ _, .inf b => !b
  | .fin a m e, .fin b n f =>
    let k := if e ≤ f then e else f
    decide (sig a m e k < sig b n f k)

def le (x y : Val) : Bool := !x.isNaN && !y.isNaN && !lt y x
def eq (x y : Val) : Bool := le x y && le y x

/-- floor(log2 |v|) of a finite non-zero value. -/
def log2 : Val → Int
  | .fin _ m e => (Nat.log2 m : Int) + e
  | _ => 0

end Val

/-! ## Rounding -/

/-- The rounding modes of R105: nearest even, or stochastic with the 20 bits of R116. -/
inductive RMode where
  | nearest
  | stochastic (u : Nat)
deriving DecidableEq, Repr

/-- An integer from m × 2^e in units of 2^k, by the mode. Discarded bits below the first 20 are ignored under stochastic
rounding (R107). -/
def roundUnits (mode : RMode) (m : Nat) (e k : Int) : Nat :=
  if k ≤ e then m * 2 ^ (e - k).toNat
  else
    let sh := (k - e).toNat
    let q := m / 2 ^ sh
    let r := m % 2 ^ sh
    match mode with
    | .nearest => if 2 * r > 2 ^ sh ∨ (2 * r = 2 ^ sh ∧ q % 2 = 1) then q + 1 else q
    | .stochastic u => if r * 2 ^ 20 / 2 ^ sh + u ≥ 2 ^ 20 then q + 1 else q

/-- A binary format: exponent bits, fraction bits, and which encodings are special (R97, R98). -/
inductive Special where
  | ieee | e4m3 | none
deriving DecidableEq, Repr

structure FloatFmt where
  eb : Nat
  fb : Nat
  special : Special

namespace FloatFmt

def bias (f : FloatFmt) : Int := 2 ^ (f.eb - 1) - 1
/-- Exponent of the last place of the subnormals. -/
def subUnit (f : FloatFmt) : Int := 1 - f.bias - f.fb
/-- The largest finite significand and its unit (last column of R94). -/
def maxFinite (f : FloatFmt) : Nat × Int :=
  match f.special with
  | .ieee => (2 ^ (f.fb + 1) - 1, f.bias - f.fb)
  | .e4m3 => (2 ^ (f.fb + 1) - 2, f.bias + 1 - f.fb)
  | .none => (2 ^ (f.fb + 1) - 1, f.bias + 1 - f.fb)
def width (f : FloatFmt) : Nat := 1 + f.eb + f.fb
/-- The canonical NaN (R103); formats without one have none. -/
def canonNaN (f : FloatFmt) : Nat :=
  match f.special with
  | .ieee => (2 ^ f.eb - 1) * 2 ^ f.fb + 2 ^ (f.fb - 1)
  | .e4m3 => 2 ^ (f.eb + f.fb) - 1
  | .none => 0
def infBits (f : FloatFmt) : Nat := (2 ^ f.eb - 1) * 2 ^ f.fb
def maxBits (f : FloatFmt) : Nat :=
  match f.special with
  | .ieee => (2 ^ f.eb - 1) * 2 ^ f.fb - 1
  | .e4m3 => 2 ^ (f.eb + f.fb) - 2
  | .none => 2 ^ (f.eb + f.fb) - 1
def signBit (f : FloatFmt) (n : Bool) : Nat := if n then 2 ^ (f.eb + f.fb) else 0

/-- The value of an encoding. -/
def decode (f : FloatFmt) (w : Nat) : Val :=
  let n := bit w (f.eb + f.fb)
  let e := w / 2 ^ f.fb % 2 ^ f.eb
  let m := w % 2 ^ f.fb
  let top := e = 2 ^ f.eb - 1
  if f.special = .ieee ∧ top then (if m = 0 then .inf n else .nan)
  else if f.special = .e4m3 ∧ top ∧ m = 2 ^ f.fb - 1 then .nan
  else if e = 0 then .fin n m f.subUnit
  else .fin n (m + 2 ^ f.fb) (e - f.bias - f.fb)

/-- Encoding of significand `q` in units 2^k, as rounding at this precision leaves it (`q` at most 2^(fb+1)). -/
def pack (f : FloatFmt) (n : Bool) (q : Nat) (k : Int) : Nat :=
  if q = 2 ^ (f.fb + 1) then f.signBit n + (k + 1 - f.subUnit + 1).toNat * 2 ^ f.fb
  else if 2 ^ f.fb ≤ q then f.signBit n + (k - f.subUnit + 1).toNat * 2 ^ f.fb + (q - 2 ^ f.fb)
  else f.signBit n + q

/-- Round a value into the format; `sat` chooses the largest finite value over infinity or NaN (R105). Infinity itself is kept by
the formats of 16 bits and more. -/
def encode (f : FloatFmt) (mode : RMode) (sat : Bool) (v : Val) : Nat :=
  let tooBig (n : Bool) : Nat :=
    match f.special with
    | .ieee => if sat then f.signBit n + f.maxBits else f.signBit n + f.infBits
    | .e4m3 => if sat then f.signBit n + f.maxBits else f.canonNaN
    | .none => f.signBit n + f.maxBits
  match v with
  | .nan => f.canonNaN
  | .inf n => if 8 < f.eb + f.fb then f.signBit n + f.infBits else tooBig n
  | .fin n m e =>
    if m = 0 then f.signBit n
    else
      let k := max (Val.log2 (.fin n m e) - f.fb) f.subUnit
      let q := roundUnits mode m e k
      let mx := f.maxFinite
      if Val.lt (.fin false mx.1 mx.2) (.fin false q k) then tooBig n else f.pack n q k

end FloatFmt

abbrev fmtFP32 : FloatFmt := ⟨8, 23, .ieee⟩
abbrev fmtBF16 : FloatFmt := ⟨8, 7, .ieee⟩
abbrev fmtFP16 : FloatFmt := ⟨5, 10, .ieee⟩
abbrev fmtE4M3 : FloatFmt := ⟨4, 3, .e4m3⟩
abbrev fmtE5M2 : FloatFmt := ⟨5, 2, .ieee⟩
abbrev fmtE3M2 : FloatFmt := ⟨3, 2, .none⟩
abbrev fmtE2M3 : FloatFmt := ⟨2, 3, .none⟩
abbrev fmtE2M1 : FloatFmt := ⟨2, 1, .none⟩
abbrev fmtF64 : FloatFmt := ⟨11, 52, .ieee⟩

/-! ## Format codes (R94) -/

/-- Element bits of a format code. -/
def elemBits (code : Nat) : Nat :=
  match code with
  | 0x0 => 16 | 0x1 => 16 | 0x2 => 32 | 0x3 => 8 | 0x4 => 8 | 0x5 => 8 | 0x6 => 8 | 0x7 => 6 | 0x8 => 6 | 0x9 => 4
  | 0xA => 8 | 0xB => 8 | 0xC => 32 | 0xD => 36 | 0xE => 32 | _ => 0

/-- Step rank of an array operand (R34, R94); none for a code that is no array operand. -/
def stepRank (code : Nat) : Option Nat :=
  match code with
  | 0x0 | 0x1 | 0x2 | 0xE => some 1
  | 0x3 | 0x4 | 0x5 | 0x6 | 0x7 | 0x8 | 0xA => some 2
  | 0x9 => some 4
  | _ => none

/-- Is the code a Microscaling format? -/
def isMX (code : Nat) : Bool := decide (5 ≤ code) && decide (code ≤ 0xA)

/-- The float format of a code's elements, where they are floats. -/
def floatOf (code : Nat) : Option FloatFmt :=
  match code with
  | 0x0 => some fmtBF16 | 0x1 => some fmtFP16 | 0x2 => some fmtFP32 | 0x3 => some fmtE4M3 | 0x4 => some fmtE5M2
  | 0x5 => some fmtE4M3 | 0x6 => some fmtE5M2 | 0x7 => some fmtE3M2 | 0x8 => some fmtE2M3 | 0x9 => some fmtE2M1
  | 0xE => some fmtBF16 | _ => none

/-- A W36 element's value (R101). -/
def w36Val (x : W36) : Val :=
  let v := x.toNat
  let n := bit v 35
  let e := bits v 34 27
  let m := bits v 26 0
  if e = 255 then (if bits v 25 0 = 0 then .inf n else .nan)
  else if e = 0 then .fin n m (-152)
  else .fin n m (e - 153)

/-- The canonical NaN of W36. -/
abbrev w36NaN : W36 := 0x7FE000000#36

/-- The canonical W36 of significand `q` (at most 2^27) in units 2^k (R101). -/
def w36Pack (n : Bool) (q : Nat) (k : Int) : W36 :=
  let sgn := if n then 2 ^ 35 else 0
  if q = 2 ^ 27 then BitVec.ofNat 36 (sgn + (k + 154).toNat * 2 ^ 27 + 2 ^ 26)
  else if 2 ^ 26 ≤ q then BitVec.ofNat 36 (sgn + (k + 153).toNat * 2 ^ 27 + q)
  else BitVec.ofNat 36 (sgn + q)

def w36Inf (n : Bool) : W36 := BitVec.ofNat 36 ((if n then 2 ^ 35 else 0) + 255 * 2 ^ 27 + 2 ^ 26)

/-- round_sr (R107): a value rounded to W36 by the 20 bits `u`. -/
def roundSr (z : Val) (u : Nat) : W36 :=
  match z with
  | .nan => w36NaN
  | .inf n => w36Inf n
  | .fin n m e =>
    if m = 0 then BitVec.ofNat 36 (if n then 2 ^ 35 else 0)
    else
      let k := max (Val.log2 z) (-126) - 26
      let q := roundUnits (.stochastic u) m e k
      if Val.lt (.fin false (2 ^ 27 - 1) 101) (.fin false q k) then w36Inf n else w36Pack n q k

/-- Value of one element encoding, without its MX scale. For code E the low half is the real part. -/
def elemVal (code w : Nat) : Val :=
  match code with
  | 0xA => (Val.ofInt (sext 8 w)).mul (Val.pow2 (-6))
  | 0xB => Val.ofInt (sext 8 w)
  | 0xC => Val.ofInt (sext 32 w)
  | 0xD => w36Val (BitVec.ofNat 36 w)
  | _ =>
    match floatOf code with
    | some f => f.decode w
    | none => .nan

/-- The value of an E8M0 scale (R98). -/
def scaleVal (b : Byte) : Val := if b = 0xFF#8 then .nan else .pow2 ((b.toNat : Int) - 127)

/-- Element `i` of a densely packed run of `w`-bit elements (R96). -/
def packedElem (bs : List Byte) (w i : Nat) : Nat :=
  leNat ((bs.drop (w * i / 8)).take (w / 8 + 2)) / 2 ^ (w * i % 8) % 2 ^ w

/-- The number a list of `w`-bit elements packs to (R96). -/
def packNat (w : Nat) : List Nat → Nat
  | [] => 0
  | x :: xs => x % 2 ^ w + 2 ^ w * packNat w xs

/-- Pack `w`-bit elements into bytes (R96). -/
def packBytes (w : Nat) (xs : List Nat) : List Byte := leBytes ((w * xs.length + 7) / 8) (packNat w xs)

/-! ## Conversions (R105, R106) -/

/-- An integer output of `n` bits, clamped. -/
def encodeInt (n : Nat) (mode : RMode) (v : Val) : Nat :=
  let hi : Int := 2 ^ (n - 1) - 1
  let lo : Int := -(2 ^ (n - 1))
  let wrap (i : Int) : Nat := (i % (2 ^ n : Nat)).toNat
  match v with
  | .nan => 0
  | .inf neg => wrap (if neg then lo else hi)
  | .fin neg m e =>
    let q : Int := roundUnits mode m e 0
    let i := if neg then -q else q
    wrap (max lo (min hi i))

/-- An MXINT8 element: units of 2⁻⁶, symmetric, 0x80 never written (R98). -/
def encodeMxInt8 (mode : RMode) (v : Val) : Nat :=
  match v with
  | .fin neg m e =>
    let q := min 127 (roundUnits mode m e (-6))
    if neg then (256 - q) % 256 else q
  | .inf neg => if neg then 0x81 else 0x7F
  | .nan => 0

/-- One element converted to a format code (R105). -/
def convertElem (code : Nat) (mode : RMode) (sat : Bool) (v : Val) : Nat :=
  match code with
  | 0xA => encodeMxInt8 mode v
  | 0xB => encodeInt 8 mode v
  | 0xC => encodeInt 32 mode v
  | 0xD => (roundSr v 0).toNat
  | _ =>
    match floatOf code with
    | some f => f.encode mode sat v
    | none => 0

/-- emax of an MX code (R106). -/
def mxEmax (code : Nat) : Int :=
  match code with
  | 0x5 => 8 | 0x6 => 15 | 0x7 => 4 | 0x8 => 2 | 0x9 => 2 | _ => 0

/-- The largest |v| of a list of finite values. -/
def maxAbs : List Val → Val
  | [] => Val.zero
  | v :: vs => let r := maxAbs vs; if r.lt v.abs then v.abs else r

/-- An MX block of 32 elements: its scale byte and element encodings (R106); `modes` gives each element's rounding. In an
MXFP8 block that holds a non-finite value the spec states no exponent for the finite elements: those encodings are the free
values `fr i` (assumption 7). -/
def mxBlock (code : Nat) (sat : Bool) (fr : Nat → Nat) (vs : List Val) (modes : List RMode) : Byte × List Nat :=
  let enc (x : Int) : List Nat :=
    (vs.zip modes).map (fun p => convertElem code p.2 sat (p.1.mul (Val.pow2 (-x))))
  if vs.all (fun v => v.isZero) then (0x00#8, enc (-127))
  else if vs.any (fun v => !v.isFinite) then
    (0xFF#8, if code = 0x5 ∨ code = 0x6 then
        vs.zipIdx.map (fun p => if p.1.isFinite then fr p.2 % 256 else convertElem code .nearest sat p.1)
      else vs.map (fun _ => 0))
  else
    let x := max (-127) (min 127 ((maxAbs vs).log2 - mxEmax code))
    (BitVec.ofNat 8 (x + 127).toNat, enc x)

/-! ## FP32 and binary64 arithmetic -/

namespace F32
def val (w : Word) : Val := fmtFP32.decode w.toNat
def rnd (v : Val) : Word := BitVec.ofNat 32 (fmtFP32.encode .nearest false v)
def add (a b : Word) : Word := rnd ((val a).add (val b))
def sub (a b : Word) : Word := rnd ((val a).sub (val b))
def mul (a b : Word) : Word := rnd ((val a).mul (val b))
/-- a × b + c with one rounding. -/
def fma (a b c : Word) : Word := rnd (((val a).mul (val b)).add (val c))
def neg (a : Word) : Word := rnd (val a).neg
def one : Word := 0x3F800000#32
def isFinite (a : Word) : Bool := (val a).isFinite
def lt (a b : Word) : Bool := (val a).lt (val b)
def ofVal (v : Val) : Word := rnd v

/-- Quotient with a sticky bit, enough bits for one rounding. -/
def divVal : Val → Val → Val
  | .nan, _ => .nan
  | _, .nan => .nan
  | .inf _, .inf _ => .nan
  | .inf a, .fin b _ _ => .inf (a != b)
  | .fin a _ _, .inf b => .fin (a != b) 0 0
  | .fin a m e, .fin b n f =>
    if n = 0 then (if m = 0 then .nan else .inf (a != b))
    else
      let q := m * 2 ^ 96 / n
      let st := if m * 2 ^ 96 % n = 0 then 0 else 1
      .fin (a != b) (2 * q + st) (e - f - 97)

def div (a b : Word) : Word := rnd (divVal (val a) (val b))

/-- floor(sqrt n), bit by bit from bit `k`. -/
def isqrt (n : Nat) : Nat → Nat → Nat
  | 0, r => if (r + 1) * (r + 1) ≤ n then r + 1 else r
  | k + 1, r => let t := r + 2 ^ (k + 1); isqrt n k (if t * t ≤ n then t else r)

/-- Square root with a sticky bit; −0 stays, a negative gives NaN. -/
def sqrtVal : Val → Val
  | .nan => .nan
  | .inf false => .inf false
  | .inf true => .nan
  | .fin n m e =>
    if m = 0 then .fin n 0 0
    else if n then .nan
    else
      let sh : Nat := if e % 2 = 0 then 128 else 129
      let mm := m * 2 ^ sh
      let r := isqrt mm 96 0
      let st := if r * r = mm then 0 else 1
      .fin false (2 * r + st) ((e - sh) / 2 - 1)

def sqrt (a : Word) : Word := rnd (sqrtVal (val a))
end F32

namespace F64
def val (w : BitVec 64) : Val := fmtF64.decode w.toNat
def rnd (v : Val) : BitVec 64 := BitVec.ofNat 64 (fmtF64.encode .nearest false v)
def add (a b : BitVec 64) : BitVec 64 := rnd ((val a).add (val b))
def mul (a b : BitVec 64) : BitVec 64 := rnd ((val a).mul (val b))
end F64

/-! ## Reduction blocks (R109 to R113) -/

/-- A reduction block: header fields and elements as integers; `none` is the marker. -/
structure RBlock where
  x : Nat
  width : Nat
  origin : Nat
  promoted : Bool
  nf : Bool
  nfIndex : Nat
  elems : List (Option Int)
deriving DecidableEq, Repr

/-- Element bits of a width code. -/
def rbWidth (w : Nat) : Nat := if w = 0 then 16 else if w = 1 then 24 else 32
/-- Bytes of a block of a width code: 68, 100 or 132. -/
def rbBytes (w : Nat) : Nat := 4 + 32 * rbWidth w / 8

/-- Is an integer in the finite range of `w` bits (R111)? -/
def inRange (w : Nat) (i : Int) : Bool := decide (-(2 ^ (w - 1) - 1 : Int) ≤ i) && decide (i ≤ (2 ^ (w - 1) - 1 : Int))

def RBlock.header (b : RBlock) : Nat :=
  b.x % 256 + 2 ^ 8 * (b.width % 4) + 2 ^ 10 * (b.origin % 2) + 2 ^ 11 * b2n b.promoted + 2 ^ 12 * b2n b.nf
    + 2 ^ 13 * (if b.nf then b.nfIndex % 32 else 0)

def RBlock.bytes (b : RBlock) : List Byte :=
  let w := rbWidth b.width
  leBytes 4 b.header ++ packBytes w (b.elems.map (fun o =>
    match o with
    | none => 2 ^ (w - 1)
    | some i => (i % (2 ^ w : Nat)).toNat))

/-- The finite elements' sum of R316 for block `c`. -/
def blockSum (c : Nat) (b : RBlock) : Int :=
  (b.elems.zipIdx).foldl (fun (n : Int) x => match x.1 with
    | some m => n + (32 * c + x.2 + 1 : Nat) * m
    | none => n) 0

/-- The checksum C of a row (R316). -/
def rowChecksum (bs : List RBlock) : BitVec 64 :=
  BitVec.ofInt 64 ((bs.zipIdx).foldl (fun n x => n + blockSum x.2 x.1) 0)

/-- Read a block. -/
def RBlock.parse (bs : List Byte) : RBlock :=
  let h := leNat (bs.take 4)
  let wc := bits h 9 8
  let w := rbWidth wc
  let body := bs.drop 4
  { x := bits h 7 0, width := wc, origin := bits h 10 10, promoted := bit h 11, nf := bit h 12, nfIndex := bits h 17 13,
    elems := (List.range 32).map (fun i =>
      let v := packedElem body w i
      if v = 2 ^ (w - 1) then none else some (sext w v)) }

/-- The grain (R110). -/
def rbGrain (origin : Nat) : Int := if origin = 0 then 11 else 19

/-- Index of the first element that a test holds of. -/
def firstIdx {α : Type} (p : α → Bool) : List α → Nat → Option Nat
  | [], _ => none
  | a :: l, i => if p a then some i else firstIdx p l (i + 1)

/-- A value to the nearest integer in units of 2^(X − 127 − G), ties to even (R112 step 1). -/
def rbElem (x : Nat) (origin : Nat) (v : Val) : Option Int :=
  match v with
  | .fin neg m e =>
    let q : Int := roundUnits .nearest m e ((x : Int) - 127 - rbGrain origin)
    some (if neg then -q else q)
  | _ => none

/-- Winnow's conversion of 32 elements to BI16 (`origin` 0) or BI24 (1) at exponent `x` (R112). -/
def RBlock.ofVals (x origin : Nat) (vs : List Val) : RBlock :=
  let ms := vs.map (fun v =>
    match rbElem x origin v with
    | some i => if inRange 32 i then some i else none
    | none => none)
  let w := rbWidth origin
  let promote := ms.any (fun o =>
    match o with
    | some i => !inRange w i
    | none => false)
  let nf := firstIdx (fun o => decide (o = none)) ms 0
  { x := x, width := if promote then 2 else origin, origin := origin, promoted := promote, nf := nf.isSome,
    nfIndex := nf.getD 0, elems := ms }

/-- Value of a reduced element (R110, R113). -/
def RBlock.elemVal (b : RBlock) (o : Option Int) : Val :=
  match o with
  | none => .nan
  | some i => (Val.ofInt i).mul (Val.pow2 ((b.x : Int) - 127 - rbGrain b.origin))

end Sys2Proof
end

