-- ==== Sys2Proof/Machine/Spring.lean ====
section
/-! DEFINITION. The Spring (R114 to R123): the keyed generator, its keys, the seeds held in registers and their parity. -/

namespace Sys2Proof.Machine

/-- Four 32-bit words, word 0 first. -/
structure Quad where
  w0 : Word
  w1 : Word
  w2 : Word
  w3 : Word
deriving DecidableEq, Repr

/-- The four words of a 128-bit number. -/
def Quad.ofNat (n : Nat) : Quad :=
  ⟨BitVec.ofNat 32 n, BitVec.ofNat 32 (n / 2 ^ 32), BitVec.ofNat 32 (n / 2 ^ 64), BitVec.ofNat 32 (n / 2 ^ 96)⟩

/-- Word `i` mod 4. -/
def Quad.word (q : Quad) (i : Nat) : Word :=
  match i % 4 with
  | 0 => q.w0
  | 1 => q.w1
  | 2 => q.w2
  | _ => q.w3

def Quad.xor (a b : Quad) : Quad := ⟨a.w0 ^^^ b.w0, a.w1 ^^^ b.w1, a.w2 ^^^ b.w2, a.w3 ^^^ b.w3⟩

/-- One half of a round of R114: the rotations are `p` and `q`. -/
def springHalf (x : Quad) (p q : Nat) : Quad :=
  let x0 := x.w0 + x.w1
  let x3 := (x.w3 ^^^ x0).rotateLeft p
  let x2 := x.w2 + x3
  let x1 := (x.w1 ^^^ x2).rotateLeft q
  ⟨x0, x1, x2, x3⟩

/-- Round `r` of R114. -/
def springRound (seed : Quad) (r : Nat) (x : Quad) : Quad :=
  let x := springHalf (springHalf x 13 17) 5 11
  let y := x.xor ⟨seed.word (r + 1), seed.word (r + 2), seed.word (r + 3), seed.word (r + 4)⟩
  { y with w0 := y.w0 + BitVec.ofNat 32 ((r + 1) * 0x7F4A7C15) }

/-- The rounds from `r` on, `n` of them. -/
def springRounds (seed : Quad) : Nat → Nat → Quad → Quad
  | 0, _, x => x
  | n + 1, r, x => springRounds seed n (r + 1) (springRound seed r x)

/-- spring_block (R114). -/
def springBlock (seed key : Quad) : Quad := springRounds seed 8 0 (key.xor seed)

/-- The Spring key of R115; each field is taken modulo its width (R117). -/
def springKey (stream pass layer mbatch step row cgroup kidx : Nat) : Quad :=
  Quad.ofNat (stream % 4 + 2 ^ 2 * (pass % 4) + 2 ^ 4 * (layer % 2 ^ 16) + 2 ^ 20 * (mbatch % 2 ^ 12)
    + 2 ^ 32 * (step % 2 ^ 32) + 2 ^ 64 * (row % 2 ^ 20) + 2 ^ 84 * (cgroup % 2 ^ 20) + 2 ^ 104 * (kidx % 2 ^ 24))

/-- The output word that serves column `col` (R116). -/
def springWord (seed : Quad) (stream pass layer mbatch step row col kidx : Nat) : Word :=
  (springBlock seed (springKey stream pass layer mbatch step row (col / 4) kidx)).word col

/-- The 20 bits of the accumulation and conversion streams. -/
def springU (seed : Quad) (stream pass layer mbatch step row col kidx : Nat) : Nat :=
  (springWord seed stream pass layer mbatch step row col kidx).toNat % 2 ^ 20

/-- The main or the catch-crop seed (R121). -/
def State.seed (s : State) (cc : Bool) : Quad :=
  if cc then ⟨s.reg Reg.spring.CC_SEED0, s.reg Reg.spring.CC_SEED1, s.reg Reg.spring.CC_SEED2, s.reg Reg.spring.CC_SEED3⟩
  else ⟨s.reg Reg.spring.SEED0, s.reg Reg.spring.SEED1, s.reg Reg.spring.SEED2, s.reg Reg.spring.SEED3⟩

/-- Does a draw use the seed register at place `i` from SEED0 (R121, R122): a word of its seed, or STEP where its key holds STEP? -/
def drawUses (cc step : Bool) (i : Nat) : Bool := if i = 8 then step else decide (4 ≤ i) == cc

/-- The parity check of a draw (R122; assumption 102): a register that the draw uses fails, and whether ERR_INJECT alone made it so. -/
def State.drawFault (s : State) (cc step : Bool) : Option Bool :=
  let bad := s.springBad.filter (fun r => drawUses cc step r.1)
  if bad.isEmpty then none else some (bad.all (fun r => r.2))

/-- The parity of a seed register fails from now on (R122), until the register is written. -/
def State.seedUpset (s : State) (r : Option (Fin 9)) : State :=
  match r with
  | some i => { s with springBad := s.springBad ++ [(i.val, false)] }
  | none => s

/-- The seed register at place `i` is stored anew, with good parity or, under ERR_INJECT, inverted (R122). -/
def State.seedStored (s : State) (i : Nat) (inj : Bool) : State :=
  { s with springBad := s.springBad.filter (fun r => decide (r.1 ≠ i)) ++ (if inj then [(i, true)] else []) }

/-- The Spring step counter. -/
def State.stepNo (s : State) : Nat := (s.reg Reg.spring.STEP).toNat

end Sys2Proof.Machine
end

