-- ==== Sys2Proof/Machine/Array.lean ====
section
/-! DEFINITION. The array's arithmetic (chapter 3): operand vectors from runs and slabs, the split and complex passes, one
step over the 128 × 128 lanes, the checksum lanes, and the checks a drain-side operation makes. -/

namespace Sys2Proof

/-- The values at keys `k`, `k + 1`, ... of a map whose unlisted keys read zero, for a map that lists nothing below `k`. -/
def CMap.denseAt {w : Nat} : CMap w → Nat → Nat → List (BitVec w)
  | _, _, 0 => []
  | [], k, n + 1 => 0 :: CMap.denseAt [] (k + 1) n
  | (j, v) :: rest, k, n + 1 =>
    if j = k then v :: CMap.denseAt rest (k + 1) n else 0 :: CMap.denseAt ((j, v) :: rest) (k + 1) n

/-- `n` values from key `k`. -/
def CMap.dense {w : Nat} (m : CMap w) (k n : Nat) : List (BitVec w) := CMap.denseAt (m.dropWhile (fun p => p.1 < k)) k n

end Sys2Proof

namespace Sys2Proof.Machine

/-! ## Forms (R56 to R60) -/

/-- Rows M of a form. -/
def formM (form : Nat) : Nat := 128 / 2 ^ form
/-- Columns N of a form. -/
def formN (form : Nat) : Nat := 128 * 2 ^ form
/-- Logical row and column of lane (p, q) in a form (R57). -/
def laneRow (form p : Nat) : Nat := p % formM form
def laneCol (form p q : Nat) : Nat := 128 * (p / formM form) + q

/-! ## Operand vectors (R54, R55, R65, R81, R82) -/

/-- Bits of one vector element in a run: the interleaved pair for complex BF16. -/
def operandBits (code : Nat) : Nat := elemBits code

/-- Passes of an operation (R156). -/
def passesOf (fmtA fmtB : Nat) : Nat :=
  if fmtA = 0x2 ∨ fmtB = 0x2 then 3 else if fmtA = 0xE then 4 else 1

/-- FP32's hi part (R81): the value truncated to BF16, so 0 for a subnormal below 2^-133 (assumption 84); a non-finite value is itself. -/
def splitHi (code w : Nat) : Val :=
  if code = 0x2 then
    let v := fmtFP32.decode w
    if v.isFinite then fmtFP32.decode (w / 2 ^ 16 * 2 ^ 16) else v
  else elemVal code w

/-- FP32's lo part (R81): x − hi rounded to BF16; +0 for a non-finite x or a narrower operand. -/
def splitLo (code w : Nat) : Val :=
  if code = 0x2 then
    let v := fmtFP32.decode w
    if v.isFinite then
      let d := v.sub (splitHi code w)
      fmtBF16.decode (fmtBF16.encode .nearest false d)
    else Val.zero
  else Val.zero

/-- Value of one element encoding for a side of a pass: `colSide` is the column operand (R81, R82). -/
def passVal (fmtA fmtB code w pass : Nat) (colSide : Bool) : Val :=
  if fmtA = 0x2 ∨ fmtB = 0x2 then
    if (pass = 0 ∧ colSide) ∨ (pass = 1 ∧ ¬ colSide) then splitLo code w else splitHi code w
  else if code = 0xE then
    let re := fmtBF16.decode (w % 2 ^ 16)
    let im := fmtBF16.decode (w / 2 ^ 16)
    if colSide then (if pass = 1 then im.neg else if pass = 3 then im else re)
    else (if pass = 0 ∨ pass = 3 then re else im)
  else elemVal code w

/-- Elements of a DIRECT run of `n` elements at rank `r`: element i's r reduction indices stand together (assumption 8);
`scales` gives each element's scale. Elements beyond the run are zero elements (R51, R54). -/
def directVec (fmtA fmtB code pass n r : Nat) (colSide : Bool) (data scales : List Byte) : List (List Val) :=
  (List.range n).map (fun i =>
    (List.range r).map (fun j =>
      if 8 * data.length < (r * i + j + 1) * operandBits code then Val.zero
      else
        let v := passVal fmtA fmtB code (packedElem data (operandBits code) (r * i + j)) pass colSide
        if isMX code then v.mul (scaleVal (scales.getD i 0)) else v))

/-- Column `t` of a slab at rank `r` (R65): element i comes from row i. Where the row's scale entry is too short to hold the byte in force,
that byte is a free value (assumption 30). -/
def turnVec (ix fmtA fmtB code pass n r t : Nat) (colSide : Bool) (slab : List SlabRow) : List (List Val) :=
  (List.range n).map (fun i =>
    let row := slab.getD i ⟨[], []⟩
    (List.range r).map (fun j =>
      if 8 * row.data.length < (r * t + j + 1) * operandBits code then Val.zero
      else
        let v := passVal fmtA fmtB code (packedElem row.data (operandBits code) (r * t + j)) pass colSide
        if isMX code then v.mul (scaleVal (row.scale.getD (r * t / 32) ((Config.free (ix + i)).setWidth 8))) else v))

/-! ## One step (R51 to R54, R107) -/

/-- Does a lo factor of zero take the product out of this pass (R81)? -/
def skipProduct (fp32 : Bool) (pass : Nat) (a b : Val) : Bool :=
  fp32 && ((decide (pass = 0) && a.isZero) || (decide (pass = 1) && b.isZero))

/-- The exact addend of a lane: the sum of its products, none where no product adds a term. -/
def laneAddend (fp32 : Bool) (pass : Nat) : List Val → List Val → Option Val
  | a :: as, b :: bs =>
    match laneAddend fp32 pass as bs with
    | none => if skipProduct fp32 pass a b then none else some (a.mul b)
    | some r => if skipProduct fp32 pass a b then some r else some ((a.mul b).add r)
  | _, _ => none

/-- The Spring coordinates of a step. -/
structure StepKey where
  seed : Quad
  pass : Nat
  layer : Nat
  mb : Nat
  step : Nat
  row0 : Nat
  col0 : Nat
  kidx : Nat

/-- One lane (R53): the running sum with the addend, one stochastic rounding. An exact zero added to a sum of -0 gives what R102 and R107
give (assumption 100). -/
def laneStep (k : StepKey) (form p q : Nat) (x : W36) (add : Option Val) : W36 :=
  match add with
  | none => x
  | some v =>
    roundSr ((w36Val x).add v)
      (springU k.seed 1 k.pass k.layer k.mb k.step (k.row0 + laneRow form p) (k.col0 + laneCol form p q) k.kidx)

/-- The bin's content after one step: every lane takes part. -/
def stepContent (k : StepKey) (form : Nat) (fp32 : Bool) (a b : List (List Val)) (old : CMap 36) : CMap 36 :=
  CMap.ofListFrom 0 ((old.dense 0 16384).zipIdx.map (fun x =>
    let p := x.2 / 128
    let q := x.2 % 128
    laneStep k form p q x.1 (laneAddend fp32 k.pass (a.getD (laneRow form p) []) (b.getD (laneCol form p q) []))))

/-! ## Checksum lanes (R83 to R86) -/

/-- Exact sum of a list. -/
def sumVals : List Val → Val
  | [] => Val.zero
  | [v] => v
  | v :: vs => v.add (sumVals vs)

/-- Add a product to a binary64 accumulator: product and sum are each rounded (assumption 9). -/
def accum64 (acc : BitVec 64) (x : Val) (y : BitVec 64) : BitVec 64 := F64.add acc (F64.rnd (x.mul (F64.val y)))

/-- Element `j` of each vector entry. -/
def rankCol (v : List (List Val)) (j : Nat) : List Val := v.map (fun e => e.getD j Val.zero)

/-- The four checksum lists of a bin, and its corner lane. -/
structure Sums where
  row : List (BitVec 64)
  rowAbs : List (BitVec 64)
  col : List (BitVec 64)
  colAbs : List (BitVec 64)
  corner : BitVec 64

/-- The checksum lanes after the products of one reduction index (R83). -/
def sumsStep1 (form : Nat) (a b : List Val) (s : Sums) : Sums :=
  let m := formM form
  let f := 2 ^ form
  let aAbs := a.map Val.abs
  let sa := F64.rnd (sumVals a)
  let saA := F64.rnd (sumVals aAbs)
  let band (v : List Val) (t : Nat) : List Val := (v.drop (128 * t)).take 128
  let sb := (List.range f).map (fun t => F64.rnd (sumVals (band b t)))
  let sbA := (List.range f).map (fun t => F64.rnd (sumVals ((band b t).map Val.abs)))
  let tb := (List.range 128).map (fun q => F64.rnd (sumVals ((List.range f).map (fun t => b.getD (128 * t + q) Val.zero))))
  let tbA := (List.range 128).map (fun q =>
    F64.rnd (sumVals ((List.range f).map (fun t => (b.getD (128 * t + q) Val.zero).abs))))
  { row := (List.range 128).map (fun p => accum64 (s.row.getD p 0) (a.getD (p % m) Val.zero) (sb.getD (p / m) 0)),
    rowAbs := (List.range 128).map (fun p => accum64 (s.rowAbs.getD p 0) (aAbs.getD (p % m) Val.zero) (sbA.getD (p / m) 0)),
    col := (List.range 128).map (fun q => accum64 (s.col.getD q 0) (F64.val sa) (tb.getD q 0)),
    colAbs := (List.range 128).map (fun q => accum64 (s.colAbs.getD q 0) (F64.val saA) (tbA.getD q 0)),
    corner := Config.cornerStep s.corner sa (F64.rnd (sumVals b)) }

/-- The checksum lanes after a step of rank `r`: one rounded addition for each reduction index, in ascending order (assumption 9). -/
def sumsStep (form r : Nat) (a b : List (List Val)) (s : Sums) : Sums :=
  (List.range r).foldl (fun s j => sumsStep1 form (rankCol a j) (rankCol b j) s) s

/-- Sum in binary64, in ascending order (R85). -/
def sum64 (vs : List Val) : BitVec 64 := vs.foldl (fun acc v => F64.add acc (F64.rnd v)) 0

/-- The sums of loaded content (R84). -/
def sumsOfContent (c : CMap 36) : Sums :=
  let vs := (c.dense 0 16384).map w36Val
  let row (p : Nat) : List Val := (vs.drop (128 * p)).take 128
  let col (q : Nat) : List Val := (List.range 128).map (fun p => vs.getD (128 * p + q) Val.zero)
  { row := (List.range 128).map (fun p => sum64 (row p)),
    rowAbs := (List.range 128).map (fun p => sum64 ((row p).map Val.abs)),
    col := (List.range 128).map (fun q => sum64 (col q)),
    colAbs := (List.range 128).map (fun q => sum64 ((col q).map Val.abs)),
    corner := Config.cornerLoad (sum64 vs) }

/-- The check of R85 on one row or column; a non-finite part is not checked (R86). -/
def checkOk (sum chk abs : BitVec 64) : Bool :=
  let s := F64.val sum
  let c := F64.val chk
  let g := F64.val abs
  !s.isFinite || !c.isFinite || !g.isFinite || ((s.sub c).abs.le ((Val.pow2 (-20)).mul g))

/-- The 36-bit values of row `p` of a content. -/
def binRow (c : CMap 36) (p : Nat) : List W36 := c.dense (128 * p) 128

/-- A row packed as 576 bytes (R75). -/
def packRow (xs : List W36) : List Byte := packBytes 36 (xs.map BitVec.toNat)

/-- The 128 values of a packed row. -/
def unpackRow (bs : List Byte) : List W36 := (List.range 128).map (fun q => BitVec.ofNat 36 (packedElem bs 36 q))

/-- Write row `p` of a content. -/
def setRow (c : CMap 36) (p : Nat) (xs : List W36) : CMap 36 :=
  xs.zipIdx.foldl (fun c x => c.wr (128 * p + x.2) x.1) c

end Sys2Proof.Machine
end

