-- ==== Sys2Proof/Machine/WinnowRow.lean ====
section
/-! DEFINITION. Winnow's stages over one drained row (R124 to R142): bias, activation, dropout, drop mask, conversion. -/

namespace Sys2Proof.Machine

/-! ## Function tables (R128 to R131) -/

/-- Does a table's bytes [lo, lo + n) meet an uncorrectable word (R131)? -/
def FnTable.badAt (t : FnTable) (lo n : Nat) : Bool := t.bad.any (fun i => decide (lo ≤ i.1) && decide (i.1 < lo + n))

/-- The four coefficients of segment `i`. -/
def FnTable.seg (t : FnTable) (i : Nat) : Word × Word × Word × Word :=
  (wordAt t.bytes (128 + 16 * i), wordAt t.bytes (132 + 16 * i), wordAt t.bytes (136 + 16 * i), wordAt t.bytes (140 + 16 * i))

/-- cubic (R130). -/
def cubic (c : Word × Word × Word × Word) (u : Word) : Word :=
  F32.fma (F32.fma (F32.fma c.2.2.2 u c.2.2.1) u c.2.1) u c.1

/-- tail (R130). -/
def tableTail (kind : Nat) (x : Word) (c : Word × Word × Word × Word) (u : Word) : Word :=
  if kind = 0 then cubic c u else if kind = 1 then x else 0

abbrev f32NaN : Word := 0x7FC00000#32

/-- floor of a finite non-negative value. -/
def floorNat : Val → Nat
  | .fin _ m e => if 0 ≤ e then m * 2 ^ e.toNat else m / 2 ^ (-e).toNat
  | _ => 0

/-- table_eval (R130); none where a word it needs is uncorrectable (R131). -/
def tableEval (t : FnTable) (x : Word) : Option Word :=
  if (F32.val x).isNaN then some f32NaN
  else if t.badAt 0 16 then none
  else
    let s := F32.mul (F32.sub x (wordAt t.bytes 0)) (wordAt t.bytes 4)
    let v := F32.val s
    if v.isNaN then some f32NaN
    else if v.lt Val.zero then
      if t.badAt 128 16 then none else some (tableTail (byteAt t.bytes 8).toNat x (t.seg 0) 0)
    else if !v.lt (Val.ofNat 256) then
      if t.badAt (128 + 16 * 255) 16 then none else some (tableTail (byteAt t.bytes 9).toNat x (t.seg 255) F32.one)
    else
      let i := floorNat v
      if t.badAt (128 + 16 * i) 16 then none else some (cubic (t.seg i) (F32.rnd (v.sub (Val.ofNat i))))

/-! ## Activation (R127) -/

/-- act(x), DERIV = 0. -/
def actFn (c : Wcfg) (t0 : Option FnTable) (x : Word) : Option Word :=
  let v := F32.val x
  match c.act with
  | 0 => some x
  | 1 => some (if v.isNaN then f32NaN else if Val.zero.lt v then x else 0)
  | 2 => some (if v.isNaN then f32NaN else if Val.zero.lt v then x else F32.mul c.slope x)
  | _ => match t0 with
         | some t => tableEval t x
         | none => none

/-- act_d(z), DERIV = 1. -/
def actDeriv (c : Wcfg) (t1 : Option FnTable) (z : Word) : Option Word :=
  let v := F32.val z
  match c.act with
  | 1 => some (if v.isNaN then f32NaN else if Val.zero.lt v then F32.one else 0)
  | 2 => some (if v.isNaN then f32NaN else if Val.zero.lt v then F32.one else c.slope)
  | _ => match t1 with
         | some t => tableEval t z
         | none => none

/-! ## Stages 1 to 3 for one element (R126) -/

/-- What stages 1 to 3 make of an element: the value that stage 5 converts, the tap value, and whether a non-finite value
was met on the way (R142). -/
structure ElemOut where
  val : Val
  tap : Val
  nf : Bool

/-- The drain's Spring coordinates. -/
structure DrainKey where
  seed : Quad
  layer : Nat
  mb : Nat
  step : Nat
  row0 : Nat
  col0 : Nat

/-- Is the value rounded to FP32 before stage 1 (R126)? -/
def Wcfg.fp32Path (c : Wcfg) : Bool :=
  decide (c.bias ≠ 0) || decide (c.act ≠ 0) || decide (c.dropT ≠ 0) || c.pre32

/-- Stages 1 to 3 of R126; none where a table word is uncorrectable. `b` is the bias element and `z` the pre-activation,
both widened to FP32; `i`, `j` the logical coordinates in the tile. -/
def stages (c : Wcfg) (k : DrainKey) (t0 t1 : Option FnTable) (v : W36) (b z : Word) (i j : Nat) : Option ElemOut :=
  let v0 := w36Val v
  if !c.fp32Path then some ⟨v0, v0, !v0.isFinite⟩
  else
    let x0 := F32.ofVal v0
    let x1 := if c.bias = 0 then x0 else F32.add x0 b
    let a : Option Word :=
      if c.act = 0 then some x1
      else if c.deriv then (actDeriv c t1 z).map (F32.mul x1)
      else actFn c t0 x1
    match a with
    | none => none
    | some x2 =>
      let x3 :=
        if c.dropT = 0 then x2
        else
          let d := (springWord k.seed 0 0 k.layer k.mb k.step (k.row0 + i) (k.col0 + j) 0).toNat % 2 ^ 16
          if d < c.dropT then 0 else F32.mul x2 c.keepScale
      let bad (w : Word) : Bool := !F32.isFinite w
      some ⟨F32.val x3, F32.val x1, !v0.isFinite || bad x0 || bad x1 || bad x2 || bad x3⟩

/-- `mapM` for a list of options. -/
def allSome {α : Type} : List (Option α) → Option (List α)
  | [] => some []
  | none :: _ => none
  | some a :: l => (allSome l).map (a :: ·)

/-! ## Stages 4 to 6: the row (R133 to R142) -/

/-- Does the drop mask keep physical row or column (R135)? -/
def keepsRow (c : Wcfg) (mask : List Byte) (p : Nat) : Bool := !c.dmask || bit (byteAt mask (p / 8)).toNat (p % 8)
def keepsCol (c : Wcfg) (mask : List Byte) (q : Nat) : Bool := !c.dmask || bit (byteAt mask (16 + q / 8)).toNat (q % 8)

/-- The rounding of each element of the row (R105, stream 3). -/
def convMode (c : Wcfg) (k : DrainKey) (i j : Nat) : RMode :=
  if c.rnd then .stochastic (springU k.seed 3 0 k.layer k.mb k.step (k.row0 + i) (k.col0 + j) 0) else .nearest

/-- A row out of Winnow. -/
structure RowOut where
  main : OqEntry
  tap : Option OqEntry
  /-- physical columns counted as non-finite (R142) -/
  nf : List Nat
  /-- blocks that promoted (R112) -/
  promoted : Nat
  /-- free values used (assumption 7) -/
  used : Nat

/-- Is an output encoding NaN or infinity? -/
def outNonFinite (code w : Nat) : Bool :=
  match code with
  | 0xA | 0xB | 0xC => false
  | _ =>
    match floatOf code with
    | some f => !(f.decode w).isFinite
    | none => false

/-- Bytes of a non-MX row in `code`, with the enables of R135 and R136. -/
def plainRow (c : Wcfg) (code : Nat) (encs : List Nat) (keep : List Bool) : List Byte × List Bool :=
  let w := elemBits code
  if code = 0xE then
    (encs.flatMap (fun e => if c.part = 0 then leBytes 2 e ++ leBytes 2 0 else leBytes 2 0 ++ leBytes 2 e),
     keep.flatMap (fun k => [k && decide (c.part = 0), k && decide (c.part = 0), k && decide (c.part = 1), k && decide (c.part = 1)]))
  else (packBytes w encs, if c.dmask then keep.flatMap (fun k => List.replicate (w / 8) k) else [])

/-- The tap row (R133). Its drop mask acts as on a row to a memory, not in MX, whatever the main row is (assumption 87). -/
def tapRow (c : Wcfg) (seq : Nat) (rowKept : Bool) (keep : List Bool) (es : List ElemOut) : Option OqEntry :=
  if c.tap = 0 then none
  else
    let code := c.tap - 1
    let encs := es.map (fun e => convertElem code .nearest false e.tap)
    let r := plainRow { c with part := 0 } code encs keep
    some (if rowKept then ⟨r.1, r.2, false, seq⟩ else ⟨[], [], true, seq⟩)

/-- Stages 4 to 6 for a Crib or Pond target (R135, R136). A finite element that a block's scale 0xFF makes read as NaN is not counted as
non-finite (assumption 86). -/
def emitMemory (c : Wcfg) (k : DrainKey) (ix seq form p : Nat) (mask : List Byte) (es : List ElemOut) : RowOut :=
  let rk := keepsRow c mask p
  let keep := (List.range 128).map (keepsCol c mask)
  let i := laneRow form p
  let modes := (List.range 128).map (fun q => convMode c k i (laneCol form p q))
  if isMX c.ofmt then
    let vs := (es.zip keep).map (fun x => if rk && x.2 then x.1.val else Val.zero)
    let blocks := (List.range 4).map (fun b =>
      mxBlock c.ofmt c.sat (fun n => (Config.free (ix + 32 * b + n)).toNat) ((vs.drop (32 * b)).take 32)
        ((modes.drop (32 * b)).take 32))
    let encs := ((blocks.flatMap (fun b => b.2)).zip keep).map (fun x => if rk && x.2 then x.1 else 0)
    let nf := (List.range 128).filter (fun q =>
      rk && keep.getD q false && ((es.getD q ⟨Val.zero, Val.zero, false⟩).nf
        || ((vs.getD q Val.zero).isFinite && decide ((blocks.getD (q / 32) (0, [])).1 ≠ 0xFF#8)
            && outNonFinite c.ofmt (encs.getD q 0))))
    { main := ⟨packBytes (elemBits c.ofmt) encs ++ blocks.map (fun b => b.1), [], false, seq⟩
      tap := tapRow c seq rk keep es, nf := nf, promoted := 0, used := 128 }
  else
    let encs := (es.zip modes).map (fun x => convertElem c.ofmt x.2 c.sat x.1.val)
    let r := plainRow c c.ofmt encs keep
    let nf := (List.range 128).filter (fun q =>
      rk && keep.getD q false && ((es.getD q ⟨Val.zero, Val.zero, false⟩).nf || outNonFinite c.ofmt (encs.getD q 0)))
    { main := if rk then ⟨r.1, r.2, false, seq⟩ else ⟨[], [], true, seq⟩
      tap := tapRow c seq rk keep es, nf := nf, promoted := 0, used := 0 }

/-- A block row as Winnow hands it to a port: four blocks, then the checksum of R316 (R313 step 1). -/
def blockRow (bs : List RBlock) : List Byte := bs.flatMap RBlock.bytes ++ leBytes 8 (rowChecksum bs).toNat

/-- Stages 4 to 6 for a Weir target (R135, R139): four reduction blocks with their checksum, or a float row. -/
def emitWeir (c : Wcfg) (k : DrainKey) (seq form p : Nat) (mask exps : List Byte) (es : List ElemOut) : RowOut :=
  let rk := keepsRow c mask p
  let keep := (List.range 128).map (keepsCol c mask)
  let kept (q : Nat) : Bool := rk && keep.getD q false
  let vs := (List.range 128).map (fun q => if kept q then (es.getD q ⟨Val.zero, Val.zero, false⟩).val else Val.zero)
  if c.red = 3 then
    let modes := (List.range 128).map (fun q => convMode c k (laneRow form p) (laneCol form p q))
    let encs := (vs.zip modes).map (fun x => convertElem c.ofmt x.2 c.sat x.1)
    { main := ⟨packBytes (elemBits c.ofmt) encs, [], false, seq⟩, tap := tapRow c seq rk keep es,
      nf := (List.range 128).filter (fun q => kept q && ((es.getD q ⟨Val.zero, Val.zero, false⟩).nf || outNonFinite c.ofmt (encs.getD q 0))),
      promoted := 0, used := 0 }
  else
    let blocks := (List.range 4).map (fun b =>
      RBlock.ofVals (byteAt exps (4 * p + b)).toNat (c.red - 1) ((vs.drop (32 * b)).take 32))
    let marks := blocks.flatMap (fun b => b.elems)
    { main := ⟨blockRow blocks, [], false, seq⟩, tap := tapRow c seq rk keep es,
      nf := (List.range 128).filter (fun q =>
        kept q && ((es.getD q ⟨Val.zero, Val.zero, false⟩).nf || decide (marks.getD q none = none))),
      promoted := (blocks.filter (fun b => b.promoted)).length, used := 0 }

/-- Winnow's stages over physical row `p` of a bin (R124); none where a table word is uncorrectable. -/
def drainRow (c : Wcfg) (k : DrainKey) (ix seq form p : Nat) (t0 t1 : Option FnTable) (bias mask exps z : List Byte)
    (row : List W36) : Option RowOut :=
  let i := laneRow form p
  let es := (row.zipIdx).map (fun x =>
    let j := laneCol form p x.2
    let b := F32.ofVal (elemVal (if c.bias = 1 then 0x0 else 0x2) (packedElem bias (if c.bias = 1 then 16 else 32) j))
    let zc := zfmtCode c.zfmt
    let zv := F32.ofVal (elemVal zc (packedElem z (elemBits zc) x.2))
    stages c k t0 t1 x.1 b zv i j)
  match allSome es with
  | none => none
  | some es => some (if c.tkind = 2 then emitWeir c k seq form p mask exps es else emitMemory c k ix seq form p mask es)

/-- The formats of R136. -/
def targetOk (c : Wcfg) : Bool :=
  if c.tkind = 2 then
    decide (c.red ≠ 0) && (decide (c.red ≠ 3) || decide (c.ofmt = 0x0) || decide (c.ofmt = 0x2))
  else decide (c.red = 0) && (decide (c.ofmt ≤ 0xC) || decide (c.ofmt = 0xE))

/-- The input queues a configuration uses (R176). -/
def inputQueues (c : Wcfg) (tload : Bool) : List Nat :=
  (if c.bias = 0 then [] else [c.biasq]) ++ (if c.act ≠ 0 ∧ c.deriv then [c.zq] else []) ++ (if c.dmask then [c.maskq] else [])
    ++ (if c.red = 1 ∨ c.red = 2 then [c.expq] else []) ++ (if tload then [c.tabq] else [])

/-- The output queues a configuration uses. -/
def outputQueues (c : Wcfg) : List Nat :=
  (if c.tkind = 2 then [] else [c.outq]) ++ (if c.tap = 0 then [] else [c.tapq])

/-- Are a list's members different? -/
def distinct : List Nat → Bool
  | [] => true
  | x :: xs => !xs.contains x && distinct xs

end Sys2Proof.Machine
end

