-- ==== Sys2Proof/Machine/Issue.lean ====
section
/-! DEFINITION. Issue by a barn sequencer: the fetch and its refusals (R155, R190), arming (R157 to R166), the bin rules at
issue (R68 to R71), and what every family of instruction shares. -/

namespace Sys2Proof.Machine

/-- The Granary bank the sequencer runs from: 0, 1 main, 2 catch-crop. -/
def Barn.bank (x : Barn) : Nat := if x.ccSave.isSome then 2 else b2n x.active

/-- May the sequencer issue: a segment runs, no boundary or fallow window holds issue, and it is not frozen? -/
def State.canIssue (s : State) (b : Nat) : Bool :=
  let x := s.barn b
  (decide (x.phase = .run) || decide (x.phase = .cc)) && x.boundary.isNone && !s.frozen (Master.barn b)

/-- FAULT_PC takes a word address of the running bank. -/
def State.setFaultPc (s : State) (b : Nat) (pc : BitVec 13) : State :=
  s.setReg (Reg.barn.FAULT_PC b) (BitVec.ofNat 32 (pc.toNat + 2 ^ 13 * b2n (s.barn b).ccSave.isSome))

/-- An instruction is refused (R155): FAULT_PC, the report of the block that found it, the freeze. -/
def State.refuseAt (s : State) (b : Nat) (pg : Page) (cause : Nat) (pc : BitVec 13) : State :=
  ((s.setFaultPc b pc).report pg { cause := cause, cls := Cls.contained, master := Master.barn b }).freeze (Master.barn b) cause

/-- An instruction already issued is refused in an engine's queue (R69, R129, R234): one report and one freeze for the instruction,
whichever of the barn's engines meets it first. BIN_CONFLICT and BIN_INVALID stand on the engine's page, FORMAT on the
sequencer's. -/
def State.refuseOp (s : State) (b e cause : Nat) (pc : BitVec 13) : State :=
  if s.frozen (Master.barn b) ∧ (s.reg (Reg.barn.FAULT_PC b)).field 12 0 = pc.toNat then s
  else s.refuseAt b (if cause = Cause.FORMAT then .barn b else .engine e) cause pc

/-- The sequencer refuses the word it fetched with FORMAT. -/
def State.refuseWord (s : State) (b : Nat) : State := s.refuseAt b (.barn b) Cause.FORMAT (s.barn b).pc

/-- An uncorrectable Granary word at a fetch or a descriptor read (R190); `inj` where a window write under ERR_INJECT made it. -/
def State.granaryFault (s : State) (b : Nat) (inj : Bool) : State :=
  s.barnFault b Cause.MEM_UNCORRECTABLE (some ⟨.barn b, Cause.MEM_UNCORRECTABLE, Cls.contained, inj, Master.barn b, 0⟩)

/-- What an issue error leads to. -/
def State.issueErr (s : State) (b : Nat) : IssueErr → State
  | .format => s.refuseWord b
  | .uncorrectable => s.granaryFault b true

/-- Is an opcode one of R156's instructions? -/
def opcodeOk (op : Nat) : Bool := decide (op ≤ 0x12)

/-- Granary key of the word at the sequencer's address. -/
def State.pcKey (s : State) (b : Nat) : Nat := granKey b (s.barn b).bank (s.barn b).pc.toNat

/-- Is a word one of R155's: VER 1 and an opcode that is an instruction's? -/
def wordKnown (w : Nat) : Bool := decide (wordVer w = 1) && opcodeOk (wordOp w)

/-- The word at the sequencer's address, when it spells the opcode `op`: else the state that results (a refusal, a fault,
or no change where another instruction stands there). -/
def State.fetchOp (s : State) (b op : Nat) : Except State Nat :=
  if !s.canIssue b then .error s
  else if bankWords (s.barn b).bank ≤ (s.barn b).pc.toNat then .error (s.refuseWord b)
  else if s.granWordBad (s.pcKey b) then .error (s.granaryFault b true)
  else
    let w := (s.gran.rd (s.pcKey b)).toNat
    if !wordKnown w then .error (s.refuseWord b)
    else if wordOp w ≠ op then .error s
    else .ok w

/-- Issue of one instruction. -/
def State.issueOp (s : State) (b op : Nat) (f : Nat → State) : State :=
  match s.fetchOp b op with
  | .error t => t
  | .ok w => f w

/-- Does the sequencer fetch a word with sound stored bits for this command: its own instruction's, or one refused as it stands? -/
def State.fetches (s : State) (b op : Nat) : Bool :=
  let w := (s.gran.rd (s.pcKey b)).toNat
  s.canIssue b && decide ((s.barn b).pc.toNat < bankWords (s.barn b).bank) && !s.granWordBad (s.pcKey b)
    && (!wordKnown w || decide (wordOp w = op))

/-- What the code of the words fetched has found, the instruction and its descriptors (R187, R190): nothing, corrected errors,
counted, or an uncorrectable one. -/
def State.upsetFetch (s : State) (b op : Nat) (u : Upset) (f : State → State) : State :=
  if !s.fetches b op then f s
  else match u with
    | .clean => f s
    | .corrected more => f (s.addFld (Reg.barn.GRANARY_ECC b) 15 0 (more + 1))
    | .uncorrectable => s.granaryFault b false

/-- The next word, after one instruction more. -/
def Barn.advance (x : Barn) : Barn := { x with pc := x.pc + 1, issued := x.issued + 1, waiting := none }
/-- As `advance`, for an operation that took a sequence number. -/
def Barn.advanceSeq (x : Barn) : Barn := { x.advance with seq := x.seq + 1 }

/-- Loop counters c[1] to c[6] (R160): 0 for a depth that is not open. -/
def Barn.counters (x : Barn) : List Nat := (List.range 6).map (fun d => (x.loops[d]?.map (fun l => l.ctr.toNat)).getD 0)

/-- The physical bin of a logical one (R74). -/
def Barn.phys (x : Barn) (logical : Nat) : Nat := if x.swapped then 1 - logical else logical

/-! ## Arming (R166) -/

/-- Has every enabled engine a free arming slot in each generator? -/
def State.armRoom (s : State) (b : Nat) (ds : List AgDesc) : Bool :=
  (s.barnEngines b).all (fun e => ds.all (fun d =>
    match (s.engine e).gens[d.agn]? with
    | some g => g.cur.isNone || g.pend.isNone
    | none => true))

/-- Arm one generator: current when it is idle, else pending. -/
def Gen.arm (g : Gen) (a : Arming) : Gen :=
  match g.cur with
  | none => { g with cur := some a }
  | some _ => { g with pend := some a }

/-- Arm the descriptors of an instruction in order. -/
def Engine.arm (x : Engine) (ds : List AgDesc) (ctrs : List Nat) (seq : Nat) : Engine :=
  ds.foldl (fun x d =>
    let a : Arming := ⟨d, ctrs, 0, seq⟩
    { x with gens := modAt x.gens d.agn (fun g => g.arm a) }) x

/-! ## Bins at issue (R68 to R71) -/

/-- Does a drain-side operation on the bin wait or run? -/
def Engine.drainPending (x : Engine) (p : Nat) : Bool :=
  x.winQ.any (fun o => decide (o.kind ≠ .wcfg) && decide (o.bin = p))
    || (match x.drain with
        | some d => decide (d.op.bin = p)
        | none => false)

/-- The judgement of an array-side operation on a bin: none where it may issue, else the cause. `start` is a zero start, a
reload or a BINWR. -/
def Engine.binVerdict (x : Engine) (p : Nat) (start : Bool) (form : Nat) (carried : Bool) : Option Nat :=
  let y := x.bins[p]?.getD Bin.reset
  let fits := if decide (y.form = form) && decide (y.carried = carried) then none else some Cause.FORMAT
  if x.drainPending p then some Cause.BIN_CONFLICT
  else match y.state with
    | .invalid => if start then none else some Cause.BIN_INVALID
    | .filling | .settling => if start then some Cause.BIN_CONFLICT else fits
    | .held => if start then none else fits
    | .draining => some Cause.BIN_CONFLICT

/-- The token passes to the array; a start records form and mode and restarts the step count. -/
def Bin.take (y : Bin) (start : Bool) (form : Nat) (carried : Bool) : Bin :=
  if start then { y with state := .filling, form := form, carried := carried, steps := 0 } else { y with state := .filling }

/-- The first enabled engine that refuses an array-side operation on the given bins, with its cause. -/
def State.binRefusal (s : State) (b : Nat) (ps : List Nat) (start : Bool) (form : Nat) (carried : Bool) : Option (Nat × Nat) :=
  (s.barnEngines b).findSome? (fun e =>
    ps.findSome? (fun p => ((s.engine e).binVerdict p start form carried).map (fun c => (e, c))))

/-- A bin refusal (R69, R71): the engine reports BIN_CONFLICT and BIN_INVALID, the sequencer FORMAT. -/
def State.refuseBin (s : State) (b : Nat) (r : Nat × Nat) : State :=
  if r.2 = Cause.FORMAT then s.refuseWord b else s.refuseAt b (.engine r.1) r.2 (s.barn b).pc

/-! ## Queues (R153) -/

/-- Has every enabled engine room in the queue of a given length? -/
def State.room (s : State) (b : Nat) (len : Engine → Nat) : Bool :=
  (s.barnEngines b).all (fun e => decide (len (s.engine e) < 4))

/-- Change every enabled engine of a barn alike (R152); the function takes the engine's number too. -/
def State.eachEngine (s : State) (b : Nat) (f : Nat → Engine → Engine) : State :=
  (s.barnEngines b).foldl (fun s e => s.modEngine e (f e)) s

/-! ## OPX and OPXW (R170 to R173) -/

/-- Does ZS resolve to a zero start (R170)? -/
def zeroStart (zs : Nat) (loops : List Loop) : Bool :=
  decide (zs = 1) || (decide (zs = 2) && (match loops.getLast? with
    | none => true
    | some l => decide (l.ctr = 0)))

/-- Queues an OPX names: operands, and the scale queues of MX operands (R167). -/
def OpxF.queues (f : OpxF) : List Nat :=
  [f.colq, f.rowq] ++ (if isMX f.fmtA then [f.colq ^^^ 1] else []) ++ (if isMX f.fmtB then [f.rowq ^^^ 1] else [])

/-- Is the operation a complex or an FP32 product? -/
def OpxF.complex (f : OpxF) : Bool := decide (f.fmtA = 0xE) || decide (f.fmtB = 0xE)
def OpxF.fp32 (f : OpxF) : Bool := decide (f.fmtA = 0x2) || decide (f.fmtB = 0x2)

/-- The refusals of R58, R65, R95, R167, R170 and R171 that the word alone decides, with the resolved zero start. -/
def opxRefused (f : OpxF) (wide zs : Bool) : Bool :=
  (if wide then decide (f.form = 0) else decide (f.form ≠ 0))
    || decide (f.zs = 3)
    || (match stepRank f.fmtA, stepRank f.fmtB with
        | some a, some b => decide (a ≠ b)
        | _, _ => true)
    || (decide (f.fmtA = 0xE) != decide (f.fmtB = 0xE))
    || ((f.reload || f.spill) && !f.carried)
    || (f.reload && zs)
    || (f.complex && (decide (f.zs ≠ 1) || f.carried || decide (f.form = 3)))
    || (f.fp32 && decide (f.form = 3))
    || (f.rowTurn && decide (f.form ≠ 0))
    || ((f.colTurn || f.rowTurn) && decide (formM f.form < f.turnL))
    || !distinct f.queues

/-- The resolved array operation for engine coordinates `c`. -/
def arrOpOf (x : Barn) (f : OpxF) (zs : Bool) (c : Coords) : ArrOp :=
  { isBinwr := false, seq := x.seq, pc := x.pc, form := f.form, colq := f.colq, rowq := f.rowq, colTurn := f.colTurn,
    rowTurn := f.rowTurn, turnL := f.turnL, fmtA := f.fmtA, fmtB := f.fmtB,
    bin0 := if f.complex then x.phys 0 else x.phys f.bin, bin1 := if f.complex then x.phys 1 else x.phys f.bin,
    zs := zs, reloadSlot := if f.reload then some c.slot else none, steps := f.steps, layer := f.layer, mb := c.mb,
    row0 := c.row0, col0 := c.col0, k0 := c.k0, cc := x.ccSave.isSome, pass := 0, t := 0, colScale := [], rowScale := [],
    started := false }

/-- The carried spill an OPX places in the Winnow queue (R173). -/
def spillOpOf (x : Barn) (f : OpxF) (c : Coords) : WinOp :=
  { kind := .spill, seq := x.seq, pc := x.pc, bin := x.phys f.bin, form := f.form, wcfg0 := 0, wcfg1 := 0, tload := false,
    outq := 0, slot := c.slot, layer := f.layer, mb := c.mb, row0 := c.row0, col0 := c.col0, cc := x.ccSave.isSome, drainNo := 0 }

/-- Issue of an OPX or OPXW whose word passed its checks. -/
def State.issueOpx (s : State) (b : Nat) (f : OpxF) (zs : Bool) (ds : List AgDesc) (t : TileOff) : State :=
  let x := s.barn b
  let start := zs || f.reload
  let ps := if f.complex then [x.phys 0, x.phys 1] else [x.phys f.bin]
  if (s.barnEngines b).any (fun e => decide (56 ≤ (coordsOf s e f.mbatch t).slot)) then s.refuseWord b
  else match s.binRefusal b ps start f.form f.carried with
    | some r => s.refuseBin b r
    | none =>
      if s.room b (fun x => x.arrQ.length) && (!f.spill || s.room b (fun x => x.winQ.length)) && s.armRoom b ds then
        let s := s.eachEngine b (fun e y =>
          let c := coordsOf s e f.mbatch t
          let y := { y with arrQ := y.arrQ ++ [arrOpOf x f zs c],
                            winQ := if f.spill then y.winQ ++ [spillOpOf x f c] else y.winQ,
                            bins := ps.foldl (fun v p => modAt v p (fun z => z.take start f.form f.carried)) y.bins }
          y.arm ds x.counters x.seq)
        s.modBarn b Barn.advanceSeq
      else s

/-- OPX (`wide` false) and OPXW. -/
def State.opx (s : State) (b : Nat) (wide : Bool) : State :=
  s.issueOp b (if wide then Opc.OPXW else Opc.OPX) (fun w =>
    let x := s.barn b
    let f := opxFields w
    let zs := zeroStart f.zs x.loops
    if opxRefused f wide zs then s.refuseWord b
    else match armList s b x.bank f.arm with
      | .error e => s.issueErr b e
      | .ok ds =>
        match tileOffsets s b x.bank f.tile x.counters with
        | .error e => s.issueErr b e
        | .ok t => s.issueOpx b f zs ds t)

/-! ## Movement (R178, R179) -/

/-- The two entries of a FILL or SPILL (R178): the read generator Q and the write generator with QSEL = IQ Q. -/
def movePair (ds : List AgDesc) (q : Nat) : Option (AgDesc × AgDesc) :=
  match ds with
  | [a, c] =>
    let rd (d : AgDesc) : Bool := decide (d.dir = 0) && decide (d.agn = q)
    let wr (d : AgDesc) : Bool := decide (d.dir = 1) && decide (d.qsel = q)
    if rd a && wr c then some (a, c) else if rd c && wr a then some (c, a) else none
  | _ => none

/-- A movement operation enters every movement queue, its generators armed. -/
def State.issueMove (s : State) (b : Nat) (kind : MovKind) (q port chan mop : Nat) (ds : List AgDesc) : State :=
  let x := s.barn b
  if s.room b (fun x => x.movQ.length) && s.armRoom b ds then
    let s := s.eachEngine b (fun _ y =>
      Engine.arm { y with movQ := y.movQ ++ [MovOp.mk kind x.seq q port chan mop (ds.map (fun d => d.agn))] } ds x.counters x.seq)
    s.modBarn b (fun x => if kind = .millop then { x.advanceSeq with handed := true } else x.advanceSeq)
  else s

/-- Mill operation code (R246): OP and TYPE; none for a reserved value. Bits [7:6] are reserved and ignored. -/
def millCode (m : Nat) : Option (Nat × Nat) :=
  if bits m 2 0 < 4 ∧ bits m 5 3 < 4 then some (bits m 5 3, bits m 2 0) else none

/-- An operation with the descriptors its ARM names; 0x7FF is refused (R178). -/
def State.moveOp (s : State) (b arm : Nat) (f : List AgDesc → State) : State :=
  if arm = noDesc then s.refuseWord b
  else match armList s b (s.barn b).bank arm with
    | .error e => s.issueErr b e
    | .ok ds => f ds

/-! ## Completion (R180, R183) -/

/-- Incomplete array-side operations of an engine issued before `seq`: queued, or with a token not yet returned. -/
def Engine.arrBefore (x : Engine) (seq : Nat) : Bool :=
  x.arrQ.any (fun o => decide (o.seq < seq)) || x.settle.any (fun t => decide (t.2.1 < seq) && t.2.2)
/-- Incomplete drain-side operations: queued, running, rows not written, tiles not taken, or a write generator that has
not made their writes. -/
def Engine.winBefore (x : Engine) (seq : Nat) : Bool :=
  x.winQ.any (fun o => decide (o.kind ≠ .wcfg) && decide (o.seq < seq))
    || (match x.drain with
        | some d => decide (d.op.seq < seq)
        | none => false)
    || x.oq.toList.any (fun q => q.any (fun e => decide (e.seq < seq)))
    || x.holds.any (fun h => decide (h.seq < seq))
/-- Incomplete movement operations. -/
def Engine.movBefore (x : Engine) (seq : Nat) : Bool := x.movQ.any (fun o => decide (o.seq < seq))

/-- Has every operation of the barn issued so far completed, and every SIGNAL been sent (R185)? -/
def State.barnDone (s : State) (b : Nat) : Bool :=
  (s.barn b).sigQ.isEmpty && (s.barnEngines b).all (fun e =>
    let x := s.engine e
    let n := (s.barn b).seq
    !x.arrBefore n && !x.winBefore n && !x.movBefore n)

end Sys2Proof.Machine
end

