-- ==== Sys2Proof/Machine/Barn.lean ====
section
/-! DEFINITION. The instructions a barn sequencer issues (R156, R170 to R186), one meaning each. A command whose word does
not stand at SEQ_PC, or whose issue must wait, changes nothing. -/

namespace Sys2Proof.Machine



/-- NOP (R156): nothing happens but the fetch. -/
def execNop : Coded BarnId → State → Out
  | ⟨b, u⟩, s =>
  .next (s.upsetFetch b Opc.NOP u (fun s => s.issueOp b Opc.NOP (fun _ => s.modBarn b Barn.advance)))

/-- END reaches the sequencer (R185): refused with a loop open (R181), else it waits at its boundary. -/
def execEndSeg : Coded BarnId → State → Out
  | ⟨b, u⟩, s =>
  .next (s.upsetFetch b Opc.END u (fun s => s.issueOp b Opc.END (fun _ =>
    if (s.barn b).loops.isEmpty then
      s.modBarn b (fun x => { x with boundary := some ⟨true, false, x.pc, false, false⟩ })
    else s.refuseWord b)))

/-- YIELD reaches the sequencer (R185): it waits at its boundary. -/
def execYieldSeg : Coded BarnId → State → Out
  | ⟨b, u⟩, s =>
  .next (s.upsetFetch b Opc.YIELD u (fun s => s.issueOp b Opc.YIELD (fun w =>
    s.modBarn b (fun x => { x with boundary := some ⟨false, bit w 117, x.pc, false, false⟩ }))))

/-- FALLOW (R186): waits for every earlier operation, then opens its window. -/
def execFallow : Coded BarnId → State → Out
  | ⟨b, u⟩, s =>
  .next (s.upsetFetch b Opc.FALLOW u (fun s => s.issueOp b Opc.FALLOW (fun w =>
    if bits w 117 102 = 0 then s.refuseWord b
    else if s.barnDone b then (s.modBarn b Barn.advance).openFallow b (bits w 117 102)
    else s)))

/-- LOOP (R181): opens a loop at the next depth, its counter 0. -/
def execLoop : Coded BarnId → State → Out
  | ⟨b, u⟩, s =>
  .next (s.upsetFetch b Opc.LOOP u (fun s => s.issueOp b Opc.LOOP (fun w =>
    if 6 ≤ (s.barn b).loops.length then s.refuseWord b
    else s.modBarn b (fun x =>
      { x.advance with loops := x.loops ++ [⟨BitVec.ofNat 20 (bits w 117 98), 0, x.pc + 1⟩] }))))

/-- ENDLOOP (R181): counts up and branches back, or closes the innermost loop. -/
def execEndloop : Coded BarnId → State → Out
  | ⟨b, u⟩, s =>
  .next (s.upsetFetch b Opc.ENDLOOP u (fun s => s.issueOp b Opc.ENDLOOP (fun _ =>
    match (s.barn b).loops.getLast? with
    | none => s.refuseWord b
    | some l =>
      s.modBarn b (fun x =>
        if l.ctr < l.cntM1 then
          { x.advance with loops := x.loops.dropLast ++ [{ l with ctr := l.ctr + 1 }], pc := l.after }
        else { x.advance with loops := x.loops.dropLast }))))

/-- Must the barn stand at this WAIT for a commit (R473, R474)? -/
def State.waitHolds (s : State) (b : Nat) : Bool :=
  decide (s.tally.state = .committing) && s.touchesBarn b && decide ((s.barn b).issued = 0) && (s.barn b).ccSave.isNone

/-- WAIT (R182): holds issue until the counter is at least N, then subtracts N. -/
def execWait : Coded BarnId → State → Out
  | ⟨b, u⟩, s =>
  .next (s.upsetFetch b Opc.WAIT u (fun s => s.issueOp b Opc.WAIT (fun w =>
    let t := bits w 117 114
    let n := bits w 113 98
    if n = 0 then s.refuseWord b
    else if s.token b t < n ∨ s.waitHolds b then s.modBarn b (fun x => { x with waiting := some (t, n) })
    else (s.setFld (Reg.barn.TOKEN b t) 15 0 (s.token b t - n)).modBarn b (fun x =>
      { x.advance with waitSums := x.waitSums.modify t (fun k => k + n) }))))

/-- SIGNAL (R183): enters the signal queue of eight. -/
def execSignal : Coded BarnId → State → Out
  | ⟨b, u⟩, s =>
  .next (s.upsetFetch b Opc.SIGNAL u (fun s => s.issueOp b Opc.SIGNAL (fun w =>
    let k := bits w 117 116
    let e : SigEntry := ⟨k, bits w 115 111, bits w 110 107, bits w 106 91, bit w 90, bit w 89, (s.barn b).seq, (s.barn b).pc⟩
    if k = 3 ∨ (k = 0 ∧ 8 ≤ e.target) ∨ (k ≠ 2 ∧ e.n = 0) then s.refuseWord b
    else if (s.barn b).sigQ.length < 8 then s.modBarn b (fun x => { x.advanceSeq with sigQ := x.sigQ ++ [e] })
    else s)))

/-- OPX, form 0 (R170). -/
def execOpx : Coded BarnId → State → Out
  | ⟨b, u⟩, s =>
  .next (s.upsetFetch b Opc.OPX u (fun s => s.opx b false))

/-- OPXW, forms 1 to 3 (R170). -/
def execOpxw : Coded BarnId → State → Out
  | ⟨b, u⟩, s =>
  .next (s.upsetFetch b Opc.OPXW u (fun s => s.opx b true))

/-- SWAPBIN (R74, R154): acts at issue on the binding. -/
def execSwapbin : Coded BarnId → State → Out
  | ⟨b, u⟩, s =>
  .next (s.upsetFetch b Opc.SWAPBIN u (fun s => s.issueOp b Opc.SWAPBIN (fun _ => s.modBarn b (fun x => { x.advance with swapped := !x.swapped }))))

/-- A drain-side operation with no configuration of its own. -/
def winOpOf (x : Barn) (kind : WinKind) (p : Nat) : WinOp :=
  { kind := kind, seq := x.seq, pc := x.pc, bin := p, form := 0, wcfg0 := x.wcfg0, wcfg1 := x.wcfg1, tload := false, outq := 0,
    slot := 0, layer := 0, mb := 0, row0 := 0, col0 := 0, cc := x.ccSave.isSome, drainNo := 0 }

/-- BINRD (R177): a full-width read of a bin enters the Winnow queue. -/
def execBinrd : Coded BarnId → State → Out
  | ⟨b, u⟩, s =>
  .next (s.upsetFetch b Opc.BINRD u (fun s => s.issueOp b Opc.BINRD (fun w =>
    let x := s.barn b
    match armList s b x.bank (bits w 114 104) with
    | .error e => s.issueErr b e
    | .ok ds =>
      if s.room b (fun y => y.winQ.length) && s.armRoom b ds then
        let o : WinOp := { winOpOf x .binrd (x.phys (bits w 117 117)) with outq := bits w 116 115 }
        (s.eachEngine b (fun _ y => Engine.arm { y with winQ := y.winQ ++ [o] } ds x.counters x.seq)).modBarn b
          Barn.advanceSeq
      else s)))

/-- The array operation of a BINWR: 128 rows from one queue. -/
def binwrOf (x : Barn) (p inq form : Nat) : ArrOp :=
  { isBinwr := true, seq := x.seq, pc := x.pc, form := form, colq := inq, rowq := inq, colTurn := false, rowTurn := false,
    turnL := 0, fmtA := 0, fmtB := 0, bin0 := p, bin1 := p, zs := false, reloadSlot := none, steps := 128, layer := 0, mb := 0,
    row0 := 0, col0 := 0, k0 := 0, cc := x.ccSave.isSome, pass := 0, t := 0, colScale := [], rowScale := [], started := false }

/-- BINWR (R177): a full-width load of a bin enters the array queue; it records FORM and MODE. -/
def execBinwr : Coded BarnId → State → Out
  | ⟨b, u⟩, s =>
  .next (s.upsetFetch b Opc.BINWR u (fun s => s.issueOp b Opc.BINWR (fun w =>
    let x := s.barn b
    let p := x.phys (bits w 117 117)
    let form := bits w 113 112
    match armList s b x.bank (bits w 110 100) with
    | .error e => s.issueErr b e
    | .ok ds =>
      match s.binRefusal b [p] true form (bit w 111) with
      | some r => s.refuseBin b r
      | none =>
        if s.room b (fun y => y.arrQ.length) && s.armRoom b ds then
          (s.eachEngine b (fun _ y =>
            Engine.arm { y with arrQ := y.arrQ ++ [binwrOf x p (bits w 116 114) form],
                                bins := modAt y.bins p (fun z => z.take true form (bit w 111)) } ds x.counters x.seq)).modBarn b
            Barn.advanceSeq
        else s)))

/-- WCFG (R175): one half of the drain parameters, refused at its own issue for reserved values; half 0 names a table load
once (R129). -/
def execWcfg : Coded BarnId → State → Out
  | ⟨b, u⟩, s =>
  .next (s.upsetFetch b Opc.WCFG u (fun s => s.issueOp b Opc.WCFG (fun w =>
    let x := s.barn b
    if wcfgReserved w then s.refuseWord b
    else if s.room b (fun y => y.winQ.length) then
      let h := BitVec.ofNat 118 (bits w 117 0)
      let s := s.eachEngine b (fun _ y => { y with winQ := y.winQ ++ [winOpOf x .wcfg 0] })
      s.modBarn b (fun x =>
        if bit w 117 then { x.advanceSeq with wcfg1 := h }
        else { x.advanceSeq with wcfg0 := h, tloadDue := decide (bits w 93 92 ≠ 0) })
    else s)))

/-- DRAIN (R176): enters the Winnow queue with the configuration in force (R125). -/
def execDrain : Coded BarnId → State → Out
  | ⟨b, u⟩, s =>
  .next (s.upsetFetch b Opc.DRAIN u (fun s => s.issueOp b Opc.DRAIN (fun w =>
    let x := s.barn b
    match armList s b x.bank (bits w 88 78) with
    | .error e => s.issueErr b e
    | .ok ds =>
      match tileOffsets s b x.bank (bits w 77 67) x.counters with
      | .error e => s.issueErr b e
      | .ok t =>
        let mb := bits w 100 89
        if (s.barnEngines b).any (fun e => decide (56 ≤ (coordsOf s e mb t).slot)) then s.refuseWord b
        else if s.room b (fun y => y.winQ.length) && s.armRoom b ds then
          (s.eachEngine b (fun e y =>
            let c := coordsOf s e mb t
            let o : WinOp := { winOpOf x .drain (x.phys (bits w 117 117)) with
              tload := x.tloadDue, layer := bits w 116 101, mb := c.mb, row0 := c.row0, col0 := c.col0 }
            Engine.arm { y with winQ := y.winQ ++ [o] } ds x.counters x.seq)).modBarn b
            (fun x => { x.advanceSeq with tloadDue := false })
        else s)))

/-- FILL (R178, R179): the Loft or device memory into the Crib. -/
def execFill : Coded BarnId → State → Out
  | ⟨b, u⟩, s =>
  .next (s.upsetFetch b Opc.FILL u (fun s => s.issueOp b Opc.FILL (fun w =>
    let q := bits w 117 115
    s.moveOp b (bits w 114 104) (fun ds =>
      match movePair ds q with
      | some (r, t) =>
        if decide (r.space ≠ 0) && decide (t.space = 0) && decide (r.total = t.total) then s.issueMove b .fill q 0 0 0 ds
        else s.refuseWord b
      | none => s.refuseWord b))))

/-- SPILL (R178, R179): the Crib to the Loft or device memory. -/
def execSpill : Coded BarnId → State → Out
  | ⟨b, u⟩, s =>
  .next (s.upsetFetch b Opc.SPILL u (fun s => s.issueOp b Opc.SPILL (fun w =>
    let q := bits w 117 115
    s.moveOp b (bits w 114 104) (fun ds =>
      match movePair ds q with
      | some (r, t) =>
        if decide (r.space = 0) && decide (t.space ≠ 0) && decide (r.total = t.total) then s.issueMove b .spill q 0 0 0 ds
        else s.refuseWord b
      | none => s.refuseWord b))))

/-- SENDW (R178): Crib runs on a point-to-point channel of a Weir port. -/
def execSendw : Coded BarnId → State → Out
  | ⟨b, u⟩, s =>
  .next (s.upsetFetch b Opc.SENDW u (fun s => s.issueOp b Opc.SENDW (fun w =>
    let q := bits w 117 115
    let port := bits w 114 110
    s.moveOp b (bits w 97 87) (fun ds =>
      if decide (port < 24) && ds.any (fun d => decide (d.dir = 0) && decide (d.agn = q) && decide (d.space = 0)) then
        s.issueMove b .sendw q port (bits w 109 98) 0 ds
      else s.refuseWord b))))

/-- MILLOP (R178, R179): pairs Crib operand runs with device addresses, run for run. -/
def execMillop : Coded BarnId → State → Out
  | ⟨b, u⟩, s =>
  .next (s.upsetFetch b Opc.MILLOP u (fun s => s.issueOp b Opc.MILLOP (fun w =>
    let q := bits w 117 115
    let mop := bits w 114 107
    s.moveOp b (bits w 106 96) (fun ds =>
      let rd (d : AgDesc) : Bool := decide (d.dir = 0) && decide (d.agn = q) && decide (d.space = 0)
      let ad (d : AgDesc) : Bool := decide (d.dir = 2) && decide (d.space = 2)
      let ok : Bool := match ds with
        | [a, c] => ((rd a && ad c) || (rd c && ad a)) && decide (a.total = c.total) && decide (a.len = c.len)
        | _ => false
      if ok && (millCode mop).isSome then s.issueMove b .millop q 0 0 mop ds else s.refuseWord b))))

end Sys2Proof.Machine
end

