-- ==== Sys2Proof/Machine/MillOps.lean ====
section
/-! DEFINITION. The Mill adders (R246 to R250): one element operation, and an operand run applied to device memory line by
line. -/

namespace Sys2Proof.Machine

/-- Element bytes of a type code (R246): 0 FP32, 1 BF16, 2 INT32, 3 INT64. -/
def millBytes (ty : Nat) : Nat := if ty = 1 then 2 else if ty = 3 then 8 else 4

/-- The float format of a type code. -/
def millFmt (ty : Nat) : FloatFmt := if ty = 1 then fmtBF16 else fmtFP32

/-- Below in the order of R247: −0 lies below +0. -/
def valBelow (x y : Val) : Bool :=
  x.lt y || (x.isZero && y.isZero && (match x, y with
    | .fin true _ _, .fin false _ _ => true
    | _, _ => false))

/-- A float operation: 0 ADD, 1 MIN, 2 MAX, 3 STORE (R247). -/
def millFloat (op ty m x : Nat) : Nat :=
  let f := millFmt ty
  let a := f.decode m
  let b := f.decode x
  match op with
  | 0 => f.encode .nearest false (a.add b)
  | 1 => if a.isNaN || b.isNaN then f.canonNaN else if valBelow b a then x else m
  | 2 => if a.isNaN || b.isNaN then f.canonNaN else if valBelow a b then x else m
  | _ => if b.isNaN then f.canonNaN else x

/-- An integer operation of `w` bits, and whether an ADD wrapped. -/
def millInt (op w m x : Nat) : Nat × Bool :=
  let a := sext w m
  let b := sext w x
  match op with
  | 0 => ((m + x) % 2 ^ w, decide (sext w ((m + x) % 2 ^ w) ≠ a + b))
  | 1 => (if b < a then x else m, false)
  | 2 => (if a < b then x else m, false)
  | _ => (x, false)

/-- One element: memory `m`, operand `x`. -/
def millElem (op ty m x : Nat) : Nat × Bool :=
  if ty < 2 then (millFloat op ty m x, false) else millInt op (8 * millBytes ty) m x

/-- Elements of a run over the memory's bytes: the new bytes, and how many ADDs wrapped. -/
def millElems (op ty : Nat) : Nat → List Byte → List Byte → List Byte × Nat
  | 0, _, _ => ([], 0)
  | n + 1, mem, xs =>
    let w := millBytes ty
    let r := millElem op ty (leNat (mem.take w)) (leNat (xs.take w))
    let q := millElems op ty n (mem.drop w) (xs.drop w)
    (leBytes w r.1 ++ q.1, b2n r.2 + q.2)

/-- The operation on one line: elements of `d` at byte `lo` (R248: indivisible, in order); the line is read first (R249). The
state, and whether the line was refused (R250). -/
def State.millLine (s : State) (op ty l lo : Nat) (d : List Byte) : State × Bool :=
  let r := millElems op ty (d.length / millBytes ty) (s.rawBytes lo d.length) d
  let w := s.rmwLine l (lo - 64 * l) r.1 []
  if w.2 then w
  else
    let k := addrStack lo
    let s := w.1.setReg (Reg.mad.MA_OPS k) (w.1.reg (Reg.mad.MA_OPS k) + BitVec.ofNat 32 (d.length / millBytes ty))
    (s.addFld (Reg.mad.MA_INT_WRAP k) 31 0 r.2, false)

/-- The lines of a run in ascending order; the first refused line. -/
def State.millLines (s : State) (op ty a : Nat) (d : List Byte) : List Nat → State × Option Nat
  | [] => (s, none)
  | l :: ls =>
    let lo := max a (64 * l)
    let hi := min (a + d.length) (64 * l + 64)
    let r := s.millLine op ty l lo ((d.drop (lo - a)).take (hi - lo))
    let q := State.millLines r.1 op ty a d ls
    (q.1, if r.2 then some l else q.2)

/-- A run of whole aligned elements applied by master `m`: the state, and whether every line took it. -/
def State.millRun (s : State) (m op ty a : Nat) (d : List Byte) : State × Bool :=
  let q := s.stackSluice a m true
  if q.2 then (q.1, false)
  else
    let r := q.1.millLines op ty a d (linesOf a d.length)
    match r.2 with
    | some l => ((r.1.setUEAddr l).reportUE m l, false)
    | none => (r.1, true)

/-- Is a run a whole number of aligned elements (R246)? -/
def millAligned (ty a n : Nat) : Bool := decide (a % millBytes ty = 0) && decide (n % millBytes ty = 0)

end Sys2Proof.Machine
end

