-- ==== Sys2Proof/Machine/EngineOps.lean ====
section
/-! DEFINITION. What the engine steps share: Crib and Loft accesses, queue pops, slabs, operand vectors of a step, the checks
of a drain and their outcome (R62, R65, R85 to R90, R167). -/

namespace Sys2Proof.Machine

/-! ## Crib and Loft -/

def cribKey (e a : Nat) : Nat := e * 4194304 + a
def loftKey (b a : Nat) : Nat := b * 33554432 + a

/-- Offsets of the bytes of a run that lie in words whose code fails (R62): the words stored under ERR_INJECT[2]. -/
def State.cribBadAt (s : State) (e a n : Nat) : List (Nat × Bool) :=
  ((List.range n).filter (fun i => decide (s.cribBad.rd (cribKey e (a + i) / 8) ≠ 0))).map (fun i => (i, true))

/-- Corrected Crib errors are counted (R91); a retired engine's count stands (R92). -/
def State.cribCorrected (s : State) (e n : Nat) : State :=
  if (s.engine e).retired then s else s.addFld (Reg.engine.CRIB_ECC e) 15 0 n

/-- What the code finds in a Crib run besides (R62): corrected words are counted, an uncorrectable one spoils the run's first word. -/
def State.cribUpset (s : State) (e : Nat) (u : Upset) (bad : List (Nat × Bool)) : State × List (Nat × Bool) :=
  match u with
  | .clean => (s, bad)
  | .corrected more => (s.cribCorrected e (more + 1), bad)
  | .uncorrectable => (s, bad ++ [(0, false)])

/-- Did ERR_INJECT make a word of the entry uncorrectable (R405)? -/
def badInjected (bad : List (Nat × Bool)) : Bool := bad.any (fun i => i.2)

/-- Write bytes with enables to a Crib: each word touched takes check bits as ERR_INJECT[2] says (R90), whichever part of it is written
(assumption 31). -/
def State.cribWrite (s : State) (e a : Nat) (d : List Byte) (en : List Bool) : State :=
  let k := cribKey e a
  let mark : BitVec 1 := if s.regBit (Reg.engine.page e + Reg.header.ERR_INJECT) 2 then 1 else 0
  let touched := ((List.range d.length).filter (fun i => en.getD i true)).map (fun i => (k + i) / 8)
  { s with crib := s.crib.wrMasked k d en, cribBad := touched.foldl (fun m w => m.wr w mark) s.cribBad }

/-! ## Queues -/

/-- Head of an input queue. -/
def Engine.iqHead (x : Engine) (q : Nat) : Option IqEntry :=
  match x.iq[q]? with
  | some (en :: _) => some en
  | _ => none
/-- Drop the head of an input queue. -/
def Engine.iqPop (x : Engine) (q : Nat) : Engine := { x with iq := modAt x.iq q (fun l => l.drop 1) }
/-- Entries in an input or an output queue. -/
def Engine.iqLen (x : Engine) (q : Nat) : Nat := (x.iq[q]?.getD []).length
def Engine.oqLen (x : Engine) (q : Nat) : Nat := (x.oq[q]?.getD []).length

/-- A run advances its arming; after its last run the pending arming becomes current (R166). -/
def Gen.advance (g : Gen) : Gen :=
  match g.cur with
  | none => g
  | some a => if a.idx + 1 < a.d.total then { g with cur := some { a with idx := a.idx + 1 } } else ⟨g.pend, none⟩

def Engine.genAdvance (x : Engine) (n : Nat) : Engine := { x with gens := modAt x.gens n Gen.advance }

/-- AG_BASEn (R197). -/
def State.agBase (s : State) (e n : Nat) : Nat := s.pair (Reg.engine.AG_BASE_LO e n) (Reg.engine.AG_BASE_HI e n)

/-- A run as it reaches a reader: bytes as they are, then free values to the length needed (assumption 3). -/
def padFree (ix n : Nat) (d : List Byte) : List Byte :=
  d ++ (List.range (n - d.length)).map (fun i => (Config.free (ix + i)).setWidth 8)

/-! ## Slabs (R65, R167) -/

/-- Slabs that a pass takes. -/
def slabsPerPass (steps : Nat) : Nat := (steps + 127) / 128
/-- Slabs the operation has used up. -/
def ArrOp.slabsUsed (o : ArrOp) : Nat := o.pass * slabsPerPass o.steps + o.t / 128

/-- Does the operation take slabs on this side (R65)? `col` is the column side. -/
def ArrOp.turnOn (o : ArrOp) (col : Bool) : Bool := !o.isBinwr && (if col then o.colTurn else o.rowTurn)

/-- The queues of one side of an operation: its operand queue, and its scale queue for an MX operand (R167). -/
def ArrOp.sideQueues (o : ArrOp) (col : Bool) : List Nat :=
  let q := if col then o.colq else o.rowq
  q :: (if !o.isBinwr && isMX (if col then o.fmtA else o.fmtB) then [q ^^^ 1] else [])

/-- The operation whose slab a side's feeder fills now (R66): in program order, the first whose slabs are not all taken. `k` slabs
stand ready, and `busy` names the queues that earlier operations still take from. -/
def feedOp (col : Bool) : List ArrOp → Nat → List Nat → Option ArrOp
  | [], _, _ => none
  | o :: l, k, busy =>
    if !o.turnOn col then feedOp col l k (busy ++ o.sideQueues true ++ o.sideQueues false)
    else
      let need := passesOf o.fmtA o.fmtB * slabsPerPass o.steps - o.slabsUsed
      if need ≤ k then feedOp col l (k - need) (busy ++ o.sideQueues (!col))
      else if (o.sideQueues col).any busy.contains then none
      else some o

/-! ## Which operation takes a run (R64, R167) -/

/-- Bytes of the bias run of a tile in a form. -/
def biasBytes (c : Wcfg) (form : Nat) : Nat := if c.bias = 0 then 0 else formN form * (if c.bias = 1 then 2 else 4)

/-- The runs a drain pops before row 0, each by its queue and its bytes: table, bias, mask, exponents (R126, R128, R145). -/
def drainNeeds (c : Wcfg) (tload : Bool) (form : Nat) : List (Nat × Nat) :=
  [(c.tabq, if tload then 4224 else 0), (c.biasq, biasBytes c form), (c.maskq, if c.dmask then 32 else 0),
   (c.expq, if c.tkind = 2 ∧ (c.red = 1 ∨ c.red = 2) then 512 else 0)]

/-- What a drain that runs has popped of them. -/
def DrainRun.got (d : DrainRun) : List Nat := [d.tab.length, d.bias.length, d.mask.length, d.exps.length]

/-- Entries of `len` bytes that queue `n` still gives a drain in a form, which has read `row` rows and popped the bytes `got`. -/
def WinOp.takes (o : WinOp) (form row : Nat) (got : List Nat) (n len : Nat) : Nat :=
  let c := wcfgOf o.wcfg0 o.wcfg1
  if o.kind ≠ .drain then 0
  else ((drainNeeds c o.tload form).zip got).foldl (fun k x => if x.1.1 = n then k + (x.1.2 - x.2 + len - 1) / len else k)
    (if c.act ≠ 0 ∧ c.deriv ∧ c.zq = n then 128 - row else 0)

/-- The current and the pending arming of a generator. -/
def Gen.arms (g : Gen) : List Arming := g.cur.toList ++ g.pend.toList

/-- Runs that an arming has still to produce. -/
def Arming.left (a : Arming) : Nat := a.d.total - a.idx

/-- Runs of a SENDW or MILLOP that wait in its queue or are still to come. -/
def Engine.movesLeft (x : Engine) (o : MovOp) : Nat :=
  let arms := ((x.gens[o.q]?.map Gen.arms).getD []).filter (fun a => decide (a.seq = o.seq))
  arms.foldl (fun k a => k + a.left) ((x.iq[o.q]?.getD []).filter (fun en => decide (en.seq = o.seq))).length

/-- Entries of queue `n` that the drain-side operations, write generators and movements issued before `seq` still take. -/
def Engine.takenBefore (x : Engine) (n len seq : Nat) : Nat :=
  let win := (x.winQ.filter (fun o => decide (o.seq < seq))).map (fun o =>
    o.takes ((x.bins[o.bin]?.getD Bin.reset).form) 0 [0, 0, 0, 0] n len)
  let run := (x.drain.toList.filter (fun d => decide (d.op.seq < seq))).map (fun d => d.op.takes d.op.form d.row d.got n len)
  let writes := ((x.gens.toList.flatMap Gen.arms).filter (fun a =>
    decide (a.d.dir = 1) && decide (a.d.qsel = n) && decide (a.seq < seq))).map Arming.left
  let moves := (x.movQ.filter (fun o =>
    (decide (o.kind = .sendw) || decide (o.kind = .millop)) && decide (o.q = n) && decide (o.seq < seq))).map x.movesLeft
  (win ++ run ++ writes ++ moves).foldl (fun a b => a + b) 0

/-- Slabs that an operation still needs on a side. -/
def ArrOp.slabsDue (o : ArrOp) (col : Bool) : Nat :=
  if o.turnOn col then passesOf o.fmtA o.fmtB * slabsPerPass o.steps - o.slabsUsed else 0

/-- Entries of queue `n` that an operation still takes on a side, whose feeder holds `k` slabs of it and `m` rows of the next. -/
def ArrOp.sideTakes (o : ArrOp) (col : Bool) (n k m : Nat) : Nat :=
  let q := if col then o.colq else o.rowq
  let code := if col then o.fmtA else o.fmtB
  let r := (stepRank code).getD 1
  let rows := (o.slabsDue col - k) * o.turnL - m
  if o.isBinwr then (if col && decide (q = n) then o.steps - o.t else 0)
  else if q = n then (if o.turnOn col then rows else passesOf o.fmtA o.fmtB * o.steps - (o.pass * o.steps + o.t))
  else if isMX code && decide (q ^^^ 1 = n) then (if o.turnOn col then rows else (r * o.steps + 31) / 32 - (r * o.t + 31) / 32)
  else 0

/-- What a feeder holds for the operations after one that needs `due` slabs. -/
def heldAfter (due : Nat) (h : Nat × Nat) : Nat × Nat := if due ≤ h.1 then (h.1 - due, h.2) else (0, 0)

/-- Is the entry at place `pos` of queue `n` an operand of the operations `l`, or another's? The `acc` entries before are taken by array
operations before them; `hc` and `hr` are the slabs ready and rows filling on the two sides. -/
def Engine.operandAt (x : Engine) (n len pos : Nat) : List ArrOp → Nat → Nat × Nat → Nat × Nat → Bool
  | [], _, _, _ => false
  | o :: l, acc, hc, hr =>
    let side (col : Bool) (h : Nat × Nat) : Nat :=
      o.sideTakes col n (min h.1 (o.slabsDue col)) (if h.1 < o.slabsDue col then h.2 else 0)
    let t := side true hc + side false hr
    let before := acc + x.takenBefore n len o.seq
    if pos < before then false
    else if pos < before + t then !o.isBinwr && (decide (o.colq = n) || decide (o.rowq = n))
    else Engine.operandAt x n len pos l (acc + t) (heldAfter (o.slabsDue true) hc) (heldAfter (o.slabsDue false) hr)

/-- Is the next run of queue `n`, `len` bytes long, one that a feeder reads as an operand (R64)? Its place behind the entries that wait
tells the operation that takes it (assumption 30). -/
def Engine.operandQueue (x : Engine) (n len : Nat) : Bool :=
  x.operandAt n len (x.iqLen n) x.arrQ 0 (x.colF.ready.length, x.colF.filling.length) (x.rowF.ready.length, x.rowF.filling.length)

/-! ## Filling the slabs -/

/-- Fill a side's slabs from the queue of the operation they belong to (with its scale rows for an MX operand), two at most. `n` bounds
the rows moved. -/
def absorbSide (col : Bool) : Nat → Engine → Feeder → Engine × Feeder
  | 0, x, f => (x, f)
  | n + 1, x, f =>
    match feedOp col x.arrQ f.ready.length [] with
    | none => (x, f)
    | some op =>
      let q := if col then op.colq else op.rowq
      let mx := isMX (if col then op.fmtA else op.fmtB)
      if 2 ≤ f.ready.length then (x, f)
      else
        match x.iqHead q, x.iqHead (q ^^^ 1) with
        | some en, sc =>
          if mx && sc.isNone then (x, f)
          else if !en.aligned || !en.bad.isEmpty || (mx && (match sc with
              | some c => !c.bad.isEmpty
              | none => false)) then (x, f)
          else
            let x := x.iqPop q
            let row : SlabRow := ⟨en.data, if mx then (sc.map (fun c => c.data)).getD [] else []⟩
            let x := if mx then x.iqPop (q ^^^ 1) else x
            let rows := f.filling ++ [row]
            let f := if op.turnL ≤ rows.length then ⟨f.ready ++ [rows], []⟩ else ⟨f.ready, rows⟩
            absorbSide col n x f
        | none, _ => (x, f)

/-- Both feeders take what their slabs need, ahead across operation boundaries (R66). -/
def Engine.absorb (x : Engine) : Engine :=
  let r := absorbSide true 16 x x.colF
  let x := { r.1 with colF := r.2 }
  let r := absorbSide false 16 x x.rowF
  { r.1 with rowF := r.2 }

/-- What stops a feeder at an entry: an uncorrectable word, or an operand run that starts on no 128-byte boundary (R62, R64). -/
inductive FeedFault where
  | uncorrectable (inj : Bool)
  | unaligned
deriving DecidableEq, Repr

/-- The fault of an operand entry and the scale entry taken with it. -/
def entryFault (en : Option IqEntry) (sc : Option IqEntry) : Option FeedFault :=
  let bad := ((en.map (fun e => e.bad)).getD []) ++ ((sc.map (fun e => e.bad)).getD [])
  if (en.map (fun e => e.aligned)).getD true then (if bad.isEmpty then none else some (.uncorrectable (badInjected bad)))
  else some .unaligned

/-- The fault that a side's feeder waits at, for a TURN operand of the head operation with no slab ready. -/
def Engine.turnFault (x : Engine) (col : Bool) : Option FeedFault :=
  match x.arrQ with
  | o :: _ =>
    let f := if col then x.colF else x.rowF
    let q := if col then o.colq else o.rowq
    let mx := isMX (if col then o.fmtA else o.fmtB)
    if o.turnOn col && f.ready.isEmpty then entryFault (x.iqHead q) (if mx then x.iqHead (q ^^^ 1) else none) else none
  | [] => none

/-- The fault that both feeders wait at. -/
def Engine.feederFault (x : Engine) : Option FeedFault := (x.turnFault true).or (x.turnFault false)

/-! ## One side of a step -/

/-- What a side of a step yields. -/
inductive SideOut where
  | wait
  | bad (f : FeedFault)
  /-- the vector, the engine after its pops, the scale bytes in force, free values used -/
  | ok (v : List (List Val)) (x : Engine) (scale : List Byte) (used : Nat)

/-- Take the vector of one side. `col` is the column operand. Scale blocks are counted from the operation's own step 0 (assumption 79). -/
def takeSide (o : ArrOp) (col : Bool) (ix : Nat) (x : Engine) : SideOut :=
  let code := if col then o.fmtA else o.fmtB
  let q := if col then o.colq else o.rowq
  let turn := if col then o.colTurn else o.rowTurn
  let n := if col then formM o.form else formN o.form
  let r := (stepRank code).getD 1
  let scale0 := if col then o.colScale else o.rowScale
  if turn then
    let f := if col then x.colF else x.rowF
    match f.ready with
    | [] => .wait
    | slab :: rest =>
      let tt := o.t % 128
      let v := turnVec ix o.fmtA o.fmtB code o.pass n r tt col slab
      let last := decide (tt = 127) || decide (o.t + 1 = o.steps)
      let f := if last then { f with ready := rest } else f
      .ok v (if col then { x with colF := f } else { x with rowF := f }) scale0 (if isMX code then n else 0)
  else
    let newBlock := isMX code && decide (r * o.t % 32 = 0)
    match x.iqHead q, x.iqHead (q ^^^ 1) with
    | none, _ => .wait
    | some en, sc =>
      if newBlock && sc.isNone then .wait
      else match entryFault (some en) (if newBlock then sc else none) with
        | some f => .bad f
        | none =>
          let scale := if newBlock then padFree ix n ((sc.map (fun c => c.data)).getD []) else scale0
          let v := directVec o.fmtA o.fmtB code o.pass n r col en.data scale
          let x := x.iqPop q
          .ok v (if newBlock then x.iqPop (q ^^^ 1) else x) scale (if newBlock then scale.length else 0)

/-! ## Bins -/

def Engine.bin (x : Engine) (p : Nat) : Bin := x.bins[p]?.getD Bin.reset
def Engine.modBin (x : Engine) (p : Nat) (f : Bin → Bin) : Engine := { x with bins := modAt x.bins p f }

def Bin.sums (y : Bin) : Sums := ⟨y.rowSum, y.rowAbs, y.colSum, y.colAbs, y.corner⟩
def Bin.setSums (y : Bin) (c : Sums) : Bin :=
  { y with rowSum := c.row, rowAbs := c.rowAbs, colSum := c.col, colAbs := c.colAbs, corner := c.corner }

/-- Sums of an empty bin (R84). -/
def Sums.zero : Sums := ⟨List.replicate 128 0, List.replicate 128 0, List.replicate 128 0, List.replicate 128 0, 0⟩

/-- A content's 128 rows of 576 bytes (R75). -/
def binBytes (c : CMap 36) : List Byte := (List.range 128).flatMap (fun p => packRow (binRow c p))
/-- The content of 73,728 bytes. -/
def bytesBin (bs : List Byte) : CMap 36 :=
  CMap.ofListFrom 0 ((List.range 128).flatMap (fun p => unpackRow ((bs.drop (576 * p)).take 576)))

/-- The last issued step on a bin has entered the array (R69): SETTLING unless another queued operation goes on. -/
def Engine.stepsDone (x : Engine) (p seq : Nat) (whole : Bool) : Engine :=
  let more := x.arrQ.any (fun o => decide (o.bin0 = p) || decide (o.bin1 = p))
  let x := { x with settle := x.settle ++ [(p, seq, whole)] }
  if more then x else x.modBin p (fun y => { y with state := .settling })

/-- The bin that a pass adds to (R82). -/
def ArrOp.binOf (o : ArrOp) : Nat := if o.pass < 2 then o.bin0 else o.bin1

/-! ## The checks of a drain (R85 to R90) -/

/-- The row check of row `p` of a bin; an injected mismatch names row 0 (R90). -/
def rowFails (y : Bin) (p : Nat) (row : List W36) : Bool :=
  !checkOk (sum64 (row.map w36Val)) (y.rowSum.getD p 0) (y.rowAbs.getD p 0)

/-- The column sums with row values added in binary64. -/
def addColumns (cols : List (BitVec 64)) (row : List W36) : List (BitVec 64) :=
  (cols.zip row).map (fun x => F64.add x.1 (F64.rnd (w36Val x.2)))

/-- First column whose check fails. -/
def colFails (y : Bin) (cols : List (BitVec 64)) : Option Nat :=
  (List.range 128).find? (fun q => !checkOk (cols.getD q 0) (y.colSum.getD q 0) (y.colAbs.getD q 0))

/-- A row check made: the first failure kept, an injection used up (R90). -/
def State.rowCheck (s : State) (e p : Nat) (y : Bin) (row : List W36) (fail : Option (Bool × Nat × Bool)) :
    State × Option (Bool × Nat × Bool) :=
  let a := Reg.engine.page e + Reg.header.ERR_INJECT
  if s.regBit a 0 then (s.setFld a 0 0 0, fail.or (some (false, 0, true)))
  else (s, if rowFails y p row then fail.or (some (false, p, false)) else fail)

/-- The column checks after the last row. -/
def State.colCheck (s : State) (e : Nat) (y : Bin) (cols : List (BitVec 64)) (fail : Option (Bool × Nat × Bool)) :
    State × Option (Bool × Nat × Bool) :=
  let a := Reg.engine.page e + Reg.header.ERR_INJECT
  if s.regBit a 1 then (s.setFld a 1 1 0, fail.or (some (true, 0, true)))
  else (s, match colFails y cols with
    | some q => fail.or (some (true, q, false))
    | none => fail)

/-- Row checks of a whole bin, in ascending order, with the column sums (R85). -/
def State.checkRows (s : State) (e : Nat) (y : Bin) : List Nat → List (BitVec 64) → Option (Bool × Nat × Bool) →
    State × List (BitVec 64) × Option (Bool × Nat × Bool)
  | [], cols, fail => (s, cols, fail)
  | p :: ps, cols, fail =>
    let row := binRow y.content p
    let r := s.rowCheck e p y row fail
    State.checkRows r.1 e y ps (addColumns cols row) r.2

/-- FP-B owes the barn a GO (R202), unless its abort became a step abort, which is restarted as a whole (R207). -/
def State.oweGo (s : State) (b : Nat) : State :=
  s.modBarn b (fun x => { x with restartDue := !x.stepAborted && (x.pendingRestart || x.abortHeld.isSome || x.pageHalt) })

/-- One mismatch of a drain-side operation on bin `p` (R88): CHK_LAST, the counts, then Transient with a segment abort that FP-B
restarts, or Retiring with the engine's retirement. -/
def State.chkMismatch (s : State) (e p : Nat) (f : Bool × Nat × Bool) : State :=
  let word := f.2.1 % 128 + 2 ^ 7 * b2n f.1 + 2 ^ 8 * p
  let us := 1000 * s.fld (Reg.engine.CHK_WINDOW e) 23 0
  let before := windowed s.time us (s.engine e).chkTimes
  let times := (s.engine e).chkTimes ++ [s.time]
  let s := (s.setReg (Reg.engine.CHK_LAST e) (BitVec.ofNat 32 word)).incFld (Reg.engine.CHK_COUNT e) 15 8
  let s := s.modEngine e (fun x => { x with chkTimes := times }.modBin p (fun y => y.invalidate .checksum))
  if before.isEmpty then
    (s.segAbort (e / 8) Cause.CHECKSUM_ROWCOL
      (some ⟨.engine e, Cause.CHECKSUM_ROWCOL, Cls.transient, f.2.2, Master.none, word⟩)).oweGo (e / 8)
  else s.retireEngine e Cause.CHECKSUM_ROWCOL word f.2.2

/-- Non-finite elements counted by a drain (R142, R143): `cols` are physical columns of row `p` of the drain. -/
def State.countNonFinite (s : State) (e p bin drainNo : Nat) (cc : Bool) (cols : List Nat) : State :=
  match cols with
  | [] => s
  | q :: _ =>
    let s := s.addFld (Reg.engine.SC_NF_TOTAL e) 31 0 cols.length
    if cc then s
    else
      let first := !s.regBit (Reg.engine.SC_NF_STEP e) 31
      let s := s.addFld (Reg.engine.SC_NF_STEP e) 23 0 cols.length
      if first then
        let s := s.setFld (Reg.engine.SC_NF_STEP e) 31 31 1
        let s := s.setReg (Reg.engine.SC_FIRST e) (BitVec.ofNat 32 (p % 128 + 2 ^ 7 * (q % 128) + 2 ^ 14 * bin + 2 ^ 16 * drainNo))
        s.report (.engine e) { cause := Cause.NONFINITE, cls := Cls.corrected }
      else s

end Sys2Proof.Machine
end

