-- ==== Sys2Proof/Machine/Engine.lean ====
section
/-! DEFINITION. The steps of an engine: generators (R159 to R167), the array (R51 to R58, R81 to R84), completion tokens (R70),
Winnow (R124 to R147), carried spills (R77), movement (R178 to R180). -/

namespace Sys2Proof.Machine

/-! ## Generators -/

/-- The data of a read run, the state after the read, and the offsets of its bad bytes; none where the read failed. -/
def State.readRun (s : State) (e : Nat) (space a n : Nat) : State × Option (List Byte × List (Nat × Bool)) :=
  let b := e / 8
  match space with
  | 0 => (s, some (s.crib.rdBytes (cribKey e a) n, s.cribBadAt e a n))
  | 1 => (s, some (s.loft.rdBytes (loftKey b a) n, []))
  | _ =>
    let r := s.memRead (Master.barn b) a n
    (r.1, r.2.map (fun d => (d, [])))

/-- Must an access of an engine wait: for a stack at T3 or a slice on its region? -/
def State.runWaits (s : State) (e space a n : Nat) : Bool :=
  match space with
  | 0 => s.sliceHoldsCrib e a n
  | 1 => s.sliceHoldsLoft (e / 8) a n
  | _ => s.memWaits a n

/-- The present run of generator `n`: its arming and address. -/
def State.runOf (s : State) (e n : Nat) : Option (Arming × Int) :=
  match (s.engine e).gens[n]? with
  | some g => g.cur.map (fun a => (a, a.addr (s.agBase e n) a.idx))
  | none => none

/-- Does a run break R161, or R64 where a feeder reads it? -/
def Engine.runBad (x : Engine) (n : Nat) (a : Arming) (addr : Int) : Bool :=
  !a.runOk addr || (x.operandQueue n a.d.len && decide (a.d.space = 0) && decide (addr % 128 ≠ 0))

/-- A run as it enters its input queue. -/
def runEntry (a : Arming) (addr : Int) (d : List Byte) (bad : List (Nat × Bool)) : IqEntry :=
  ⟨d, bad, a.seq, decide (a.d.space ≠ 0) || decide (addr % 128 = 0)⟩

/-- Does an element of the descriptor write bytes of a run that an engine reads (R208)? -/
def FDesc.feedsRun (d : FDesc) (e space a n : Nat) (i : Nat) : Bool :=
  let x := d.element i
  let meets := decide (x.dst < (a + n : Nat)) && decide ((a : Int) < x.dst + d.elem)
  meets && (match space with
    | 0 => decide (d.dstSpace = 2) && (d.engines x).contains e
    | 1 => decide (d.dstSpace = 3) && decide (d.barn = e / 8)
    | _ => decide (d.dstSpace = 1))

/-- The Flumes whose stream a run belongs to: those that signal the engine's barn and have written its bytes (R208). -/
def State.streamsOf (s : State) (e space a n : Nat) : List Nat :=
  (List.range 32).filter (fun f =>
    match (s.flume f).cur with
    | some t => decide (t.d.sigKind = 0) && decide (t.d.sigEvery ≠ 0) && decide (t.d.sigTarget = e / 8)
        && (List.range t.issued).any (t.d.feedsRun e space a n)
    | none => false)

/-- The access of a run: in device memory it needs a tag (R285) and crosses sluices, whose entry may fail (R399). -/
def State.runAccess (s : State) (e space a n : Nat) (p : SluiceParity) (go : State → State) : State :=
  let m := Master.barn (e / 8)
  if space < 2 then go s
  else s.withTags m a n (fun s =>
    let q := s.sluiceParity p m
    if q.2 then q.1.barnFault (e / 8) Cause.MEM_UNCORRECTABLE else if q.1.fatal then q.1 else go q.1)

/-- A run is read and enters its input queue. -/
def State.takeRun (s : State) (e n : Nat) (u : Upset) (a : Arming) (addr : Int) : State :=
  let fs := s.streamsOf e a.d.space addr.toNat a.d.len
  let s := if fs.isEmpty then s else s.modBarn (e / 8) (fun x => { x with popped := x.popped ++ fs.filter (fun f => !x.popped.contains f) })
  let r := s.readRun e a.d.space addr.toNat a.d.len
  match r.2 with
  | none => r.1.barnFault (e / 8) Cause.MEM_UNCORRECTABLE
  | some d =>
    let q := if a.d.space = 0 then r.1.cribUpset e u d.2 else (r.1, d.2)
    q.1.modEngine e (fun x =>
      (({ x with iq := modAt x.iq n (fun l => l ++ [runEntry a addr d.1 q.2]) } : Engine).genAdvance n).absorb)

/-- GENERATOR_RUN (R165): the next run of a read generator enters its input queue; a run that breaks R161 or R64 is a fault. -/
def execGeneratorRun : Coded EngId → Sluiced (Fin 8) → State → Out
  | ⟨e, u⟩, ⟨n, p⟩, s =>
  .next (match s.runOf e n with
    | none => s
    | some (a, addr) =>
      if a.d.dir ≠ 0 ∨ 4 ≤ (s.engine e).iqLen n then s
      else if (s.engine e).runBad n a addr then s.engineFault e Cause.FORMAT
      else if s.runWaits e a.d.space addr.toNat a.d.len then s
      else s.runAccess e a.d.space addr.toNat a.d.len p (fun s => s.takeRun e n u a addr))

/-- Write a popped entry at its run address: the state, and whether the target took it. -/
def State.writeRun (s : State) (e space a : Nat) (d : List Byte) (en : List Bool) : State × Bool :=
  let b := e / 8
  match space with
  | 0 => (s.cribWrite e a d en, true)
  | 1 => ({ s with loft := s.loft.wrMasked (loftKey b a) d en }, true)
  | _ => s.memWriteMasked (Master.barn b) a d en

/-- Is the movement operation of an arming the one that runs (R153)? An arming of another instruction does not wait. -/
def Engine.movesNow (x : Engine) (seq : Nat) : Bool :=
  match x.movQ with
  | o :: _ => decide (o.seq = seq) || !x.movQ.any (fun p => decide (p.seq = seq))
  | [] => true

/-- A write generator takes one entry from an input queue (R165). -/
def State.writeFromIq (s : State) (e n : Nat) (a : Arming) (addr : Int) (p : SluiceParity) : State :=
  let q := a.d.qsel
  match (s.engine e).iqHead q with
  | none => s
  | some en =>
    if !(s.engine e).movesNow a.seq then s
    else if !en.bad.isEmpty then s.engineFault e Cause.MEM_UNCORRECTABLE (badInjected en.bad)
    else if en.data.length ≠ a.d.len ∨ !a.runOk addr then s.engineFault e Cause.FORMAT
    else if s.runWaits e a.d.space addr.toNat a.d.len then s
    else s.runAccess e a.d.space addr.toNat a.d.len p (fun s =>
      let r := s.writeRun e a.d.space addr.toNat en.data []
      if r.2 then r.1.modEngine e (fun x => (x.iqPop q).genAdvance n)
      else r.1.barnFault (e / 8) Cause.MEM_UNCORRECTABLE)

/-- A write generator takes one row from an output queue; a row not to be written is stepped past (R135). -/
def State.writeFromOq (s : State) (e n : Nat) (a : Arming) (addr : Int) (p : SluiceParity) : State :=
  let q := a.d.qsel - 8
  match (s.engine e).oq[q]? with
  | some (en :: _) =>
    let pop (x : Engine) : Engine := { x with oq := modAt x.oq q (fun l => l.drop 1) }.genAdvance n
    if en.skip then (if a.runOk addr then s.modEngine e pop else s.engineFault e Cause.FORMAT)
    else if en.data.length ≠ a.d.len ∨ !a.runOk addr then s.engineFault e Cause.FORMAT
    else if s.runWaits e a.d.space addr.toNat a.d.len then s
    else s.runAccess e a.d.space addr.toNat a.d.len p (fun s =>
      let r := s.writeRun e a.d.space addr.toNat en.data en.enables
      if r.2 then r.1.modEngine e pop
      else r.1.barnFault (e / 8) Cause.MEM_UNCORRECTABLE)
  | _ => s

/-- An address generator gives MILLOP its next address: the run at the head of the operand queue is applied there (R179,
R246 to R250). -/
def State.millFromGen (s : State) (e n : Nat) (a : Arming) (addr : Int) (p : SluiceParity) : State :=
  match (s.engine e).movQ with
  | o :: _ =>
    match (s.engine e).iqHead o.q, millCode o.mop with
    | some en, some (op, ty) =>
      if o.kind ≠ .millop ∨ o.seq ≠ a.seq then s
      else if !en.bad.isEmpty then s.engineFault e Cause.MEM_UNCORRECTABLE (badInjected en.bad)
      else if en.data.length ≠ a.d.len ∨ !a.runOk addr ∨ !millAligned ty addr.toNat a.d.len then s.engineFault e Cause.FORMAT
      else if s.runWaits e 2 addr.toNat a.d.len || s.sliceHoldsMill (addrStack addr.toNat) then s
      else s.runAccess e 2 addr.toNat a.d.len p (fun s =>
        let r := s.millRun (Master.barn (e / 8)) op ty addr.toNat en.data
        if r.2 then r.1.modEngine e (fun x => (x.iqPop o.q).genAdvance n)
        else r.1.barnFault (e / 8) Cause.MEM_UNCORRECTABLE)
    | _, _ => s
  | [] => s

/-- WRITE_GENERATOR_WRITE (R165): one entry leaves its queue for its run address; an address generator serves MILLOP. -/
def execWriteGeneratorWrite : EngId → Sluiced (Fin 8) → State → Out
  | e, ⟨n, p⟩, s =>
  .next (match s.runOf e n with
    | none => s
    | some (a, addr) =>
      match a.d.dir with
      | 1 => if a.d.qsel < 8 then s.writeFromIq e n a addr p else s.writeFromOq e n a addr p
      | 2 => s.millFromGen e n a addr p
      | _ => s)

/-- Has the movement operation met its condition of R180? Of a SENDW only the runs of its own queue count: the port takes those. -/
def Engine.moveDone (x : Engine) (o : MovOp) : Bool :=
  !(x.gens.toList.zipIdx).any (fun g => (decide (o.kind ≠ .sendw) || decide (g.2 = o.q)) && [g.1.cur, g.1.pend].any (fun a => match a with
    | some a => decide (a.seq = o.seq)
    | none => false))
  && !(x.iq[o.q]?.getD []).any (fun en => decide (en.seq = o.seq))

/-- MOVEMENT_COMPLETE (R180): the movement operation at the head of its queue completes. -/
def execMovementComplete (e : EngId) (s : State) : Out :=
  .next (match (s.engine e).movQ with
    | o :: rest => if (s.engine e).moveDone o then s.modEngine e (fun x => { x with movQ := rest }) else s
    | [] => s)

/-! ## The array -/

/-- Make the zero start or the reload of an operation before its first step (R69, R77, R84). -/
def State.startArr (s : State) (e : Nat) (o : ArrOp) : State :=
  match o.reloadSlot with
  | some n =>
    let c := bytesBin (s.loft.rdBytes (loftKey (e / 8) (slotAddr (e % 8) n)) 73728)
    s.modEngine e (fun x => x.modBin o.bin0 (fun y => ({ y with content := c } : Bin).setSums (sumsOfContent c)))
  | none =>
    if o.zs || o.isBinwr then
      s.modEngine e (fun x => [o.bin0, o.bin1].foldl (fun x p =>
        x.modBin p (fun y => ({ y with content := [] } : Bin).setSums Sums.zero)) x)
    else s

/-- The array operation at the head of the queue counts one step on, and leaves after its last (R172). -/
def Engine.countStep (x : Engine) (o : ArrOp) : Engine :=
  let rest := x.arrQ.drop 1
  if o.t + 1 < o.steps then { x with arrQ := { o with t := o.t + 1 } :: rest }
  else if o.isBinwr then ({ x with arrQ := rest } : Engine).stepsDone o.bin0 o.seq true
  else
    let passes := passesOf o.fmtA o.fmtB
    let complex := decide (o.fmtA = 0xE)
    if o.pass + 1 < passes then
      let x := { x with arrQ := { o with t := 0, pass := o.pass + 1, colScale := [], rowScale := [] } :: rest }
      if complex && decide (o.pass = 1) then
        let x := { x with settle := x.settle ++ [(o.bin0, o.seq, false)] }
        if rest.any (fun p => decide (p.bin0 = o.bin0) || decide (p.bin1 = o.bin0)) then x
        else x.modBin o.bin0 (fun y => { y with state := .settling })
      else x
    else ({ x with arrQ := rest } : Engine).stepsDone o.binOf o.seq true

/-- One BINWR row (R75, R177). -/
def State.binwrStep (s : State) (e : Nat) (o : ArrOp) : State :=
  match (s.engine e).iqHead o.colq with
  | none => s
  | some en =>
    if !en.bad.isEmpty then s.engineFault e Cause.MEM_UNCORRECTABLE (badInjected en.bad)
    else if en.data.length ≠ 576 then s.engineFault e Cause.FORMAT
    else
      let s := if o.started then s else s.startArr e o
      let o := { o with started := true }
      s.modEngine e (fun x =>
        let x := (x.iqPop o.colq).modBin o.bin0 (fun y => { y with content := setRow y.content o.t (unpackRow en.data) })
        let x := if o.t = 127 then x.modBin o.bin0 (fun y => y.setSums (sumsOfContent y.content)) else x
        x.countStep o)

/-- Step `o.t` of pass `o.pass`: one outer product into the bin, with the checksum lanes (R51 to R54, R81 to R83). -/
def State.productStep (s : State) (e : Nat) (o : ArrOp) (a b : List (List Val)) : State :=
  let r := (stepRank o.fmtA).getD 1
  let fp32 := decide (o.fmtA = 0x2) || decide (o.fmtB = 0x2)
  let k : StepKey := { seed := s.seed o.cc, pass := o.pass, layer := o.layer, mb := o.mb, step := s.stepNo, row0 := o.row0,
                       col0 := o.col0, kidx := o.k0 + r * o.t }
  s.modEngine e (fun x =>
    let x := x.modBin o.binOf (fun y =>
      ({ y with content := stepContent k o.form fp32 a b y.content, steps := y.steps + 1 } : Bin).setSums
        (sumsStep o.form r a b y.sums))
    { x with workBeats := x.workBeats + 1 }.countStep o)

/-- What a feeder's fault leads to (R62, R64). -/
def State.feedFault (s : State) (e : Nat) : FeedFault → State
  | .uncorrectable inj => s.engineFault e Cause.MEM_UNCORRECTABLE inj
  | .unaligned => s.engineFault e Cause.FORMAT

/-- One OPX or OPXW step once both operands are there. -/
def State.opxStep (s : State) (e : Nat) (o : ArrOp) : State :=
  let x := (s.engine e).absorb
  let s := s.setEngine e x
  match x.feederFault with
  | some f => s.feedFault e f
  | none =>
  match takeSide o true s.freeIx x with
    | .wait => s
    | .bad f => s.feedFault e f
    | .ok a x colScale u =>
      match takeSide o false (s.freeIx + u) x with
      | .wait => s
      | .bad f => s.feedFault e f
      | .ok b x rowScale v =>
        match s.drawFault o.cc true with
        | some inj => s.springFault inj
        | none =>
          let s := { s with freeIx := s.freeIx + u + v }
          let s := s.setEngine e x
          let s := if o.started then s else s.startArr e o
          s.productStep e { o with started := true, colScale := colScale, rowScale := rowScale } a b

/-- The step limit (R69, R87): the operation is refused, its bin INVALID with LIMIT. -/
def State.limitRefusal (s : State) (e : Nat) (o : ArrOp) : State :=
  (s.modEngine e (fun x => { x with arrQ := x.arrQ.drop 1 }.modBin o.binOf (fun y => y.invalidate .limit))).refuseOp (e / 8) e
    Cause.FORMAT o.pc

/-- ARRAY_STEP (R51): the array operation at the head of its queue makes one step, or loads one row. -/
def execArrayStep : Drawn EngId → State → Out
  | ⟨e, r⟩, s =>
  let s := s.seedUpset r
  .next (match (s.engine e).arrQ with
    | [] => s
    | o :: _ =>
      if s.sliceHoldsArray e then s
      else if o.isBinwr then s.binwrStep e o
      else if 1048576 ≤ ((s.engine e).bin o.binOf).steps then s.limitRefusal e o
      else s.opxStep e o)

/-- COMPLETION_TOKEN_RETURN (R70): the oldest outstanding token of the bin returns; a settled chain's bin is HELD. -/
def execCompletionTokenReturn (e : EngId) (bin : Fin 2) (s : State) : Out :=
  .next (s.modEngine e (fun x =>
    match x.settle.findIdx? (fun t => decide (t.1 = bin.val)) with
    | none => x
    | some i =>
      let rest := x.settle.eraseIdx i
      let x := { x with settle := rest }
      if (x.bin bin).state = .settling ∧ !rest.any (fun t => decide (t.1 = bin.val)) then
        x.modBin bin (fun y => { y with state := .held })
      else x))

/-! ## Winnow -/

/-- Leading WCFG entries leave the Winnow queue: each drain carries its own configuration (R125). -/
def dropWcfg : List WinOp → List WinOp
  | o :: l => if o.kind = .wcfg then dropWcfg l else o :: l
  | [] => []

/-- A drain-side operation is refused at the head of the Winnow queue (R69, R176). -/
def State.refuseWin (s : State) (e cause : Nat) (o : WinOp) : State :=
  (s.modEngine e (fun x => { x with winQ := x.winQ.drop 1, drain := none })).refuseOp (e / 8) e cause o.pc

/-- Do the next 128 runs of an arming go where the target says: SPACE 0 for the Crib, SPACE 2 at Pond addresses for Pond (R176)? -/
def State.runsFit (s : State) (e n : Nat) (crib : Bool) (a : Arming) : Bool :=
  if crib then decide (a.d.space = 0)
  else decide (a.d.space = 2) && (List.range 128).all (fun i =>
    decide (a.d.total ≤ a.idx + i) ||
      (let x := a.addr (s.agBase e n) (a.idx + i)
       decide (0 ≤ x) && decide (x < 2 ^ 40)))

/-- Is the write generator that takes a drain's rows from output queue `q` armed for the drain's space? The drain's own arming is judged
where it has one, else the generator's current one. A queue with no armed generator is not judged (R176). -/
def State.queueFits (s : State) (e q : Nat) (crib : Bool) (o : WinOp) : Bool :=
  let takes (a : Arming) : Bool := decide (a.d.dir = 1) && decide (a.d.qsel = 8 + q)
  let arms := (List.range 8).flatMap (fun n => match (s.engine e).gens[n]? with
    | some g => ([g.cur, g.pend].filterMap id).filter takes |>.map (fun a => (n, a))
    | none => [])
  let own := arms.filter (fun x => decide (x.2.seq = o.seq))
  let cur := arms.filter (fun x => match (s.engine e).gens[x.1]? with
    | some g => decide (g.cur = some x.2)
    | none => false)
  (if own.isEmpty then cur else own).all (fun x => s.runsFit e x.1 crib x.2)

/-- The rows and the tap rows go where the target says: the tap of a Weir drain to the Crib (R133, R176; assumption 80). -/
def State.outSpaceOk (s : State) (e : Nat) (c : Wcfg) (o : WinOp) : Bool :=
  (decide (c.tkind = 2) || s.queueFits e c.outq (decide (c.tkind = 0)) o)
    && (decide (c.tap = 0) || s.queueFits e c.tapq (decide (c.tkind ≠ 1)) o)

/-- Is the function table that a drain needs valid, or loaded by it (R129)? -/
def tableOk (x : Engine) (c : Wcfg) (tload : Bool) : Bool :=
  if c.act = 3 then
    let slot := b2n c.deriv
    (tload && decide (c.tload = slot + 1)) || (match x.tables[slot]? with
      | some (some _) => true
      | _ => false)
  else true

/-- The configuration checks of a DRAIN at the head of the queue (R129, R136, R176). -/
def State.drainOk (s : State) (e : Nat) (o : WinOp) : Bool :=
  let c := wcfgOf o.wcfg0 o.wcfg1
  targetOk c && distinct (inputQueues c o.tload) && distinct (outputQueues c) && s.outSpaceOk e c o && tableOk (s.engine e) c o.tload

/-- Bytes still to come of a run that Winnow pops in entries (R126, R128). An entry that holds more than the run still needs is popped
whole, and the rest of it is dropped (assumption 101). -/
def popRun (q need : Nat) : Nat → Engine → List Byte → List (Nat × Bool) → Engine × List Byte × List (Nat × Bool)
  | 0, x, got, bad => (x, got, bad)
  | n + 1, x, got, bad =>
    if need ≤ got.length then (x, got, bad)
    else match x.iqHead q with
      | none => (x, got, bad)
      | some en => popRun q need n (x.iqPop q) (got ++ en.data) (bad ++ en.bad.map (fun i => (got.length + i.1, i.2)))

/-- Pop what has arrived of the runs a drain names; `begun` once all are there (R145 step 1). -/
def State.popRuns (s : State) (e : Nat) (d : DrainRun) : State :=
  let c := wcfgOf d.op.wcfg0 d.op.wcfg1
  let x := s.engine e
  let need (i : Nat) : Nat := (((drainNeeds c d.op.tload d.op.form)[i]?.map (fun x => x.2)).getD 0)
  let needT := need 0
  let needB := need 1
  let needM := need 2
  let needE := need 3
  let t := popRun c.tabq needT 64 x d.tab d.tabBad
  let bi := popRun c.biasq needB 64 t.1 d.bias []
  let mk := popRun c.maskq needM 64 bi.1 d.mask []
  let ex := popRun c.expq needE 64 mk.1 d.exps []
  let s := s.setEngine e ex.1
  let bad := bi.2.2 ++ mk.2.2 ++ ex.2.2
  if !bad.isEmpty then s.engineFault e Cause.MEM_UNCORRECTABLE (badInjected bad)
  else
    let begun := decide (needT ≤ t.2.1.length) && decide (needB ≤ bi.2.1.length) && decide (needM ≤ mk.2.1.length)
      && decide (needE ≤ ex.2.1.length)
    let d := { d with tab := t.2.1, tabBad := t.2.2, bias := bi.2.1, mask := mk.2.1, exps := ex.2.1, begun := begun }
    if begun && d.op.tload then
      if 2 < (byteAt d.tab 8).toNat ∨ 2 < (byteAt d.tab 9).toNat then
        (s.modEngine e (fun x => { x with drain := none, holds := x.holds.filter (fun h => decide (h.seq ≠ d.op.seq)) }.modBin
          d.op.bin (fun y => { y with state := .held }))).refuseOp (e / 8) e
          Cause.FORMAT d.op.pc
      else s.modEngine e (fun x =>
        { x with drain := some d, tables := x.tables.setIfInBounds (c.tload - 1) (some ⟨d.tab.take 4224, d.tabBad⟩) })
    else s.modEngine e (fun x => { x with drain := some d })

/-- Number of this DRAIN within the step (R148), and the next one. One refused for its table run has taken its number (assumption 81). -/
def Engine.takeDrainNo (x : Engine) (o : WinOp) : Nat × Engine :=
  if o.kind = .drain ∧ !o.cc then (x.drainNo, { x with drainNo := satInc 16 x.drainNo }) else (x.drainNo, x)

/-- Does a slice of its Winnow, its hold buffers or its bins hold the engine's drains (R228)? -/
def State.winnowHeld (s : State) (e : Nat) : Bool := s.sliceHoldsWinnow e || s.sliceHoldsArray e

/-- DRAIN_START (R145): the drain-side operation at the head takes the bin token and pops its runs; a refused one leaves. The operation that
runs gives its queue entry free as it starts, where an array or a movement operation keeps its entry to its end (assumption 111). -/
def execDrainStart (e : EngId) (s : State) : Out :=
  .next (
    if s.winnowHeld e then s
    else
    let s := s.modEngine e (fun x => { x with winQ := dropWcfg x.winQ })
    match (s.engine e).drain, (s.engine e).winQ with
    | some d, _ => if d.begun then s else s.popRuns e d
    | none, [] => s
    | none, o :: rest =>
      let y := (s.engine e).bin o.bin
      let c := wcfgOf o.wcfg0 o.wcfg1
      if o.kind = .spill then s
      else match y.state with
        | .invalid => s.refuseWin e Cause.BIN_INVALID o
        | .filling | .settling => s
        | .held | .draining =>
          if o.kind = .drain ∧ !s.drainOk e o then s.refuseWin e Cause.FORMAT o
          else if o.kind = .drain ∧ c.tkind = 2 ∧ 2 ≤ (s.engine e).holds.length then s
          else
            let n := (s.engine e).takeDrainNo o
            let o := { o with form := y.form, drainNo := n.1 }
            let d : DrainRun := { op := o, begun := decide (o.kind ≠ .drain), tab := [], tabBad := [], bias := [], mask := [],
                                  exps := [], row := 0, colSums := List.replicate 128 0, fail := none }
            let hold : List HoldBuf := if o.kind = .drain ∧ c.tkind = 2 then
                [⟨o.seq, c.port, c.red, o.layer, o.row0, o.col0, o.cc, [], false⟩] else []
            let s := s.setEngine e ({ n.2 with winQ := rest, drain := some d, holds := n.2.holds ++ hold }.modBin o.bin
              (fun y => { y with state := .draining }))
            if o.kind = .drain then s.popRuns e d else s)

/-- The last row has been read and its checks made (R145 step 9): HELD, or the mismatch of R88. WN_DRAINS counts a drain whose checks
passed (assumption 81). -/
def State.endDrain (s : State) (e : Nat) (d : DrainRun) (y : Bin) (cols : List (BitVec 64)) (fail : Option (Bool × Nat × Bool)) :
    State :=
  let r := s.colCheck e y cols fail
  let s := r.1.modEngine e (fun x => { x with drain := none })
  match r.2 with
  | some f =>
    (s.modEngine e (fun x => { x with holds := x.holds.filter (fun h => decide (h.seq ≠ d.op.seq)) })).chkMismatch e d.op.bin f
  | none =>
    let s := s.modEngine e (fun x =>
      ({ x with holds := x.holds.map (fun (h : HoldBuf) => if h.seq = d.op.seq then { h with released := true } else h) } :
        Engine).modBin d.op.bin (fun y => { y with state := .held }))
    if d.op.kind = .drain then s.setReg (Reg.engine.WN_DRAINS e) (s.reg (Reg.engine.WN_DRAINS e) + 1) else s

/-- One row of a BINRD: 576 bytes into OUTQ (R75). -/
def State.binrdRow (s : State) (e : Nat) (d : DrainRun) : State :=
  if 4 ≤ (s.engine e).oqLen d.op.outq then s
  else
    let y := (s.engine e).bin d.op.bin
    let row := binRow y.content d.row
    let r := s.rowCheck e d.row y row d.fail
    let cols := addColumns d.colSums row
    let d' := { d with row := d.row + 1, colSums := cols, fail := r.2 }
    let s := r.1.modEngine e (fun x => { x with
      oq := modAt x.oq d.op.outq (fun l => l ++ [⟨packRow row, [], false, d.op.seq⟩]), drain := some d' })
    if d.row = 127 then s.endDrain e d' y cols r.2 else s

/-- A drained row leaves the stages: its queue entries, its counts, its promotions. -/
def State.emitRow (s : State) (e : Nat) (c : Wcfg) (d : DrainRun) (o : RowOut) : State :=
  let s := s.modEngine e (fun x =>
    let x := if c.tkind = 2 then
        { x with holds := x.holds.map (fun h => if h.seq = d.op.seq then { h with rows := h.rows ++ [o.main.data] } else h) }
      else { x with oq := modAt x.oq c.outq (fun l => l ++ [o.main]) }
    match o.tap with
    | some t => { x with oq := modAt x.oq c.tapq (fun l => l ++ [t]) }
    | none => x)
  let s := { s with freeIx := s.freeIx + o.used }
  let s := s.countNonFinite e d.row d.op.bin d.op.drainNo d.op.cc o.nf
  (List.range o.promoted).foldl (fun s _ =>
    s.report (.engine e) { cause := Cause.REDUCE_PROMOTED, cls := Cls.corrected }) s

/-- What the code of the table words looked up for a row finds besides (R131). -/
def State.lookupUpset (s : State) (e : Nat) (c : Wcfg) (u : Upset) : State :=
  if c.act = 3 then (s.cribUpset e u []).1 else s

/-- The table that a drain's activation looks up (R127). -/
def Engine.tableOf (x : Engine) (c : Wcfg) : Option FnTable := x.tables[b2n c.deriv]?.getD none

/-- One row of a DRAIN through the stages of R124. -/
def State.drainStep (s : State) (e : Nat) (d : DrainRun) (u : Upset) : State :=
  let c := wcfgOf d.op.wcfg0 d.op.wcfg1
  let x := s.engine e
  let needZ := decide (c.act ≠ 0) && c.deriv
  let z := if needZ then x.iqHead c.zq else some ⟨[], [], 0, true⟩
  match z with
  | none => s
  | some zen =>
    if (decide (c.tkind ≠ 2) && decide (4 ≤ x.oqLen c.outq)) || (decide (c.tap ≠ 0) && decide (4 ≤ x.oqLen c.tapq)) then s
    else if !zen.bad.isEmpty then s.engineFault e Cause.MEM_UNCORRECTABLE (badInjected zen.bad)
    else
      match (if c.rnd || decide (c.dropT ≠ 0) then s.drawFault d.op.cc true else none) with
      | some inj => s.springFault inj
      | none =>
      let y := x.bin d.op.bin
      let row := binRow y.content d.row
      let k : DrainKey := { seed := s.seed d.op.cc, layer := d.op.layer, mb := d.op.mb, step := s.stepNo, row0 := d.op.row0,
                            col0 := d.op.col0 }
      let zlen := 128 * elemBits (zfmtCode c.zfmt) / 8
      let zdata := if needZ then padFree s.freeIx zlen zen.data else []
      let s := { s with freeIx := s.freeIx + (zdata.length - zen.data.length) }
      match drainRow c k s.freeIx d.op.seq d.op.form d.row (x.tables[0]?.getD none) (x.tables[1]?.getD none) d.bias d.mask d.exps
          zdata row with
      | none => s.engineFault e Cause.MEM_UNCORRECTABLE (((x.tableOf c).map (fun t => badInjected t.bad)).getD false)
      | some o =>
        if c.act = 3 ∧ u = .uncorrectable then s.engineFault e Cause.MEM_UNCORRECTABLE
        else
        let s := s.lookupUpset e c u
        let s := if needZ then s.modEngine e (fun x => x.iqPop c.zq) else s
        let r := s.rowCheck e d.row y row d.fail
        let cols := addColumns d.colSums row
        let d' := { d with row := d.row + 1, colSums := cols, fail := r.2 }
        let s := r.1.modEngine e (fun x => { x with drain := some d' })
        let s := s.emitRow e c d o
        if d.row = 127 then s.endDrain e d' y cols r.2 else s

/-- WINNOW_ROW (R124, R145): Winnow reads one physical row of the drain that runs. -/
def execWinnowRow : Coded (Drawn EngId) → State → Out
  | ⟨⟨e, r⟩, u⟩, s =>
  let s := s.seedUpset r
  .next (match (s.engine e).drain with
    | none => s
    | some d =>
      if !d.begun || s.winnowHeld e then s
      else if d.op.kind = .drain then s.drainStep e d u else s.binrdRow e d)

/-- CARRIED_SPILL (R77): the spill at the head of the Winnow queue writes the bin's 128 rows to its Loft slot and checks
them as it reads. -/
def execCarriedSpill (e : EngId) (s : State) : Out :=
  .next (
    if s.winnowHeld e then s
    else
    let s := s.modEngine e (fun x => { x with winQ := dropWcfg x.winQ })
    match (s.engine e).drain, (s.engine e).winQ with
    | none, o :: rest =>
      if o.kind ≠ .spill then s
      else
        let y := (s.engine e).bin o.bin
        match y.state with
        | .invalid => s.refuseWin e Cause.BIN_INVALID o
        | .filling | .settling => s
        | .held | .draining =>
          let a := loftKey (e / 8) (slotAddr (e % 8) o.slot)
          let s := { s with loft := s.loft.wrBytes a (binBytes y.content) }
          let r := s.checkRows e y (List.range 128) (List.replicate 128 0) none
          let s := r.1.modEngine e (fun x => { x with winQ := rest })
          let q := s.colCheck e y r.2.1 r.2.2
          match q.2 with
          | some f => q.1.chkMismatch e o.bin f
          | none => q.1.modEngine e (fun x => x.modBin o.bin (fun y => { y with state := .held }))
    | _, _ => s)

end Sys2Proof.Machine
end

