-- ==== Sys2Proof/Machine/Schedule.lean ====
section
/-! DEFINITION. Spans of the live admission (R216 to R227), segments and their snapshots (R199 to R202), bank swaps (R191,
R192), catch-crop entry and exit (R194, R195, R232), units taken off line at a barn's boundary (R213). -/

namespace Sys2Proof.Machine

/-! ## Spans -/

def State.span (s : State) (b : Nat) : Span := s.tally.spans[b]?.getD Span.reset
def State.setSpan (s : State) (b : Nat) (x : Span) : State :=
  { s with tally := { s.tally with spans := s.tally.spans.setIfInBounds b x } }

/-- The table that a barn's current record stands in (R222): the one it took at its last swap. -/
def State.spanTable (s : State) (b : Nat) : List AdmRec := (s.span b).table

/-- The record at an index. -/
def recAt (recs : List AdmRec) (i : Nat) : Option AdmRec := recs[i]?

/-- Indices of a barn's records with CATCH = 0 (R216). -/
def recsOf (recs : List AdmRec) (b : Nat) : List Nat :=
  (recs.zipIdx.filter (fun x => decide (x.1.barn = b) && !x.1.catchCrop)).map (fun x => x.2)

/-- The barn's current record. -/
def State.curRec (s : State) (b : Nat) : Option AdmRec :=
  if (s.span b).live then recAt (s.spanTable b) (s.span b).recIx else none

/-- Release the current record of a barn at an event of kind `rel` (R216). A voided span waits for the restart (R225). -/
def State.releaseSpan (s : State) (b rel : Nat) : State :=
  match s.curRec b with
  | some r =>
    let x := s.span b
    if !x.released && !x.voided && decide (r.rel = rel) then
      (s.setSpan b { x with released := true, timer := 0, segs := 0, missed := false, sub := 0 }).modBarn b
        (fun y => { y with ccEntries := 0 })
    else s
  | none => s

/-- Every record has ended when no barn has one and none waits for a new table (R225). -/
def State.endIfDone (s : State) : State :=
  if s.tally.live && (List.range 8).all (fun b => !(s.span b).live && !(s.span b).fromNew) then s.endAdmission 0 else s

/-- The span's next record becomes due, or the barn has none left (R216). -/
def State.nextRec (s : State) (b : Nat) : State :=
  let x := s.span b
  match (recsOf (s.spanTable b) b).find? (fun i => decide (x.recIx < i)) with
  | some i => s.setSpan b { Span.reset with live := true, recIx := i, table := x.table, fromNew := x.fromNew }
  | none => s.setSpan b { Span.reset with fromNew := x.fromNew }

/-- A main-bank boundary of a released span (R216). -/
def State.countSpan (s : State) (b : Nat) : State :=
  match s.curRec b with
  | some r =>
    let x := s.span b
    if !x.released then s
    else if x.segs + 1 < r.segCount then s.setSpan b { x with segs := x.segs + 1 }
    else (s.nextRec b).endIfDone
  | none => s

/-- The barn takes the new table's records and its EPOCH (R210, R222). -/
def State.takeTable (s : State) (b : Nat) : State :=
  let recs := s.tally.recs
  let sp : Span := match recsOf recs b with
    | i :: _ => { Span.reset with live := true, recIx := i, table := recs }
    | [] => Span.reset
  let s := s.setSpan b sp
  s.setFld ((Page.barn b).base + Reg.header.EPOCH) 15 0 (s.fld Reg.tally.ADM_EPOCH 15 0)

/-- A sub-cause held during the span (R224): the highest is kept. -/
def State.spanSub (s : State) (b sub : Nat) : State :=
  let x := s.span b
  if x.live && x.released then s.setSpan b { x with sub := max x.sub sub } else s

/-! ## Segments -/

/-- The restart snapshot of the segment that begins now (R200, R355). -/
def Barn.takeSnap (x : Barn) : Snap :=
  { pc := x.pc, ccBank := x.ccSave.isSome, active := x.active, swapped := x.swapped, loops := x.loops, wcfg0 := x.wcfg0,
    wcfg1 := x.wcfg1, tloadDue := x.tloadDue }

/-- A segment begins: its snapshot, its sums and signal count at 0. The step snapshot is that of the first segment of the
step (R205). -/
def Barn.beginSegment (x : Barn) : Barn :=
  { x with snap := x.takeSnap, waitSums := List.replicate 16 0, popped := [], segSignals := 0, suppress := 0, handed := false,
           replaying := false, boundary := none, waiting := none, pendingRestart := false, restartDue := false, goHeld := none,
           stepSnap := match x.stepSnap with
             | some y => some y
             | none => some x.takeSnap }

/-- A START (R192): loops closed, word 0 of the active bank, a new segment. -/
def Barn.start (x : Barn) : Barn :=
  ({ x with loops := [], pc := 0, phase := .run, ccSave := none, issued := 0, pageHalt := false, stepAborted := false } : Barn).beginSegment

/-- A GO (R202): the snapshot restored, the SIGNALs already received to be suppressed. -/
def Barn.restart (x : Barn) : Barn :=
  let n := x.snap
  { x with pc := n.pc, active := n.active, swapped := n.swapped, loops := n.loops, wcfg0 := n.wcfg0, wcfg1 := n.wcfg1,
           tloadDue := n.tloadDue, phase := if n.ccBank then .cc else .run, ccSave := if n.ccBank then x.ccSave else none,
           suppress := x.segSignals, replaying := true, pendingRestart := false, restartDue := false, goHeld := none, issued := 0,
           handed := false,
           boundary := none, waiting := none, waitSums := List.replicate 16 0, popped := [], stepAborted := false, pageHalt := false }

/-- A swap applies (R192): the banks change roles, loops close, both WCFG halves clear. -/
def State.applySwap (s : State) (b : Nat) : State :=
  (s.modBarn b (fun x => { x with active := !x.active, swapPending := false, loops := [], wcfg0 := 0, wcfg1 := 0,
                                  tloadDue := false })).setFld (Reg.barn.BANK_SWAP b) 0 0 0

/-- A barn that stands IDLE swaps at once, unless a slice puts it off (R191, R409). -/
def State.idleSwap (s : State) (b : Nat) : State :=
  if (s.barn b).phase = .idle ∧ (s.barn b).swapPending ∧ !s.swapHeld b then s.applySwap b else s

/-- The IDLE barn of a new admission takes its table with its swap (R210, R222). -/
def State.idleTake (s : State) (b : Nat) : State :=
  if (s.barn b).phase = .idle ∧ (s.span b).fromNew ∧ !(s.barn b).swapPending then s.takeTable b else s

/-- Does a slice put off what the next main-bank boundary of the barn would take away (R409)? -/
def State.boundarySlice (s : State) (b : Nat) : Bool :=
  ((s.barn b).swapPending && (s.barn b).ccSave.isNone && s.swapHeld b)
    || ((s.barn b).offline && !(s.barn b).offApplied && s.sliceInUnit 5 b)
    || (List.range 8).any (fun i => (s.engine (8 * b + i)).offline && !(s.engine (8 * b + i)).offApplied && s.sliceInUnit 0 (8 * b + i))

/-! ## Catch-crop (R194, R195, R232) -/

/-- Loft offset of a saved bin (R195). -/
def State.ccSaveAddr (s : State) (b p bin : Nat) : Nat :=
  128 * s.fld (Reg.barn.CC_SAVE b) 24 7 + 147456 * p + 73728 * bin

/-- Save one bin by the BINRD path: checked as it is read, written at full width. A save area that passes the Loft's end runs on into the
next barn's (assumption 88). -/
def State.saveBin (s : State) (e bin : Nat) : State :=
  let b := e / 8
  let y := (s.engine e).bin bin
  if (s.barn b).phase = .idle ∨ y.state = .invalid then s
  else
    let r := s.checkRows e y (List.range 128) (List.replicate 128 0) none
    let s := { r.1 with loft := r.1.loft.wrBytes (loftKey b (r.1.ccSaveAddr b (e % 8) bin)) (binBytes y.content) }
    let q := s.colCheck e y r.2.1 r.2.2
    match q.2 with
    | some f => q.1.chkMismatch e bin f
    | none => q.1.modBarn b (fun x => { x with ccSave := x.ccSave.map (fun c =>
        { c with bins := c.bins ++ [⟨e, bin, y.form, y.carried⟩] }) })

/-- May a YIELD with CC = 1 enter the catch-crop bank (R194, R232)? -/
def State.ccAllowed (s : State) (b : Nat) : Bool :=
  s.regBit (Reg.barn.SEQ_CTRL b) 1 && !s.swapPending b && !(s.barn b).offApplied &&
    (match s.curRec b with
     | some r => decide ((s.barn b).ccEntries < r.ccEntries)
     | none => true)

/-- Entry at a YIELD whose word stands at `addr`. -/
def State.ccEnter (s : State) (b : Nat) (addr : BitVec 13) : State :=
  let s := s.modBarn b (fun x => { x with ccSave := some ⟨x.swapped, x.loops, x.wcfg0, x.wcfg1, x.tloadDue, addr + 1, []⟩ })
  let s := (s.barnEngines b).foldl (fun s e => (s.saveBin e 0).saveBin e 1) s
  if (s.barn b).phase = .idle then s
  else s.modBarn b (fun x =>
    ({ x with swapped := false, loops := x.ccLoops, wcfg0 := 0, wcfg1 := 0, tloadDue := false, pc := x.ccPc, phase := .cc,
              ccEntries := x.ccEntries + 1 } : Barn).beginSegment)

/-- Restore an engine's bins at the exit. -/
def State.restoreBins (s : State) (e : Nat) (saved : List SavedBin) : State :=
  let b := e / 8
  [0, 1].foldl (fun s bin =>
    match saved.find? (fun v => decide (v.eng = e) && decide (v.bin = bin)) with
    | none => s.modEngine e (fun x => x.modBin bin (fun y => { y.invalidate .reset with steps := y.steps }))
    | some v =>
      let c := bytesBin (s.loft.rdBytes (loftKey b (s.ccSaveAddr b (e % 8) bin)) 73728)
      s.modEngine e (fun x => x.modBin bin (fun y =>
        ({ y with state := .held, form := v.form, carried := v.carried, steps := 0, content := c } : Bin).setSums (sumsOfContent c)))) s

/-- Exit at the catch-crop program's END or YIELD (R195). -/
def State.ccExit (s : State) (b : Nat) (isEnd : Bool) (addr : BitVec 13) : State :=
  match (s.barn b).ccSave with
  | none => s
  | some c =>
    let s := (s.barnEngines b).foldl (fun s e => s.restoreBins e c.bins) s
    let s := if isEnd then s.setFld (Reg.barn.SEQ_CTRL b) 1 1 0 else s
    s.modBarn b (fun x =>
      ({ x with ccPc := if isEnd then 0 else addr + 1, ccLoops := if isEnd then [] else x.loops, swapped := c.swapped,
                loops := c.loops, wcfg0 := c.wcfg0, wcfg1 := c.wcfg1, tloadDue := c.tloadDue, pc := c.retPc, phase := .run,
                ccSave := none } : Barn).beginSegment)

end Sys2Proof.Machine
end

