-- ==== Sys2Proof/Machine/Access.lean ====
section
/-! DEFINITION. Which accesses of a master are served (R401, R440, R445, R448, R463). -/

namespace Sys2Proof

/-- Is the master one of those named? -/
def Writer.isIn (w : Writer) (l : List Writer) : Bool := l.contains w

/-- Device bytes that a Memory window access covers, its offset, and whether it reads. -/
def MemAccess.size : MemAccess → Nat
  | .read _ n => n
  | .write _ d _ => d.length
def MemAccess.offset : MemAccess → Nat
  | .read o _ => o.toNat
  | .write o _ _ => o.toNat
def MemAccess.isRead : MemAccess → Bool
  | .read _ _ => true
  | .write _ _ _ => false

end Sys2Proof

namespace Sys2Proof.Machine

/-- Is a write of master `w` to window offset `a` served (R401, R445, R448)? -/
def State.serves (s : State) (w : Writer) (a : Nat) : Bool :=
  match w with
  | .host =>
    if s.frozen Master.host then decide (a = Page.host.base + Reg.header.FREEZE)
    else decide (s.host.accMaj = 1) || decide (a = Reg.global.page + Reg.header.VERSION)
      || decide (pageOf a = .gleaner) || decide (a = Page.host.base + Reg.header.FREEZE)
  | .mgmt => !s.frozen Master.mgmt || decide (a = Page.mgmt.base + Reg.header.FREEZE)
  | .fp k => !s.frozen (Master.fp k) && decide ((s.fp k).state = .running)

/-- Does the host's link carry window accesses: up, not in D3hot (R440), the module started? -/
def State.hostLink (s : State) : Bool := s.host.linkUp && !s.host.d3hot && s.up

/-- Is the management port powered, and does it take a write: none in the Fatal state (R397); in TEST, where the core logic
stands in reset, and while a start runs, those of its own page (R382). -/
def State.mgmtTakes (s : State) (a : Nat) : Bool :=
  !s.fatal && (s.up || ((decide (s.module.power = .test) || decide (s.module.power = .start)) && decide (pageOf a = .mgmt)))

/-- Pages that have power in STOPPED (R382, R397, R434): those that the management port and FP-B's boot ROM need. -/
def poweredStopped : Page → Bool
  | .global | .gleaner | .gauge | .mgmt | .fp _ | .fpLog _ => true
  | _ => false

/-- Has the page that a management read asks for power (R397)? -/
def State.mgmtReads (s : State) (a : Nat) : Bool :=
  s.up || decide (s.module.power = .start) || decide (s.module.power = .test)
    || (decide (s.module.power = .stopped) && poweredStopped (pageOf a))

/-- TUN_CTRL as an access made now finds it: the last write that still waits at the head, else the register (R346). -/
def State.tunWord (s : State) : Word :=
  s.host.tunHeld.foldl (fun v x => match x with
    | .ctrl v' => v'
    | .req _ => v) (s.reg Reg.global.TUN_CTRL)

/-- Does the tunnel carry host accesses to this offset to another module (R344)? Those are TUNNEL_REQUESTs. -/
def State.regTunnelled (s : State) (a : Nat) : Bool := bit s.tunWord.toNat 14 && decide (0x10000 ≤ a)

/-- Does the Memory window reach the target (R344)? -/
def State.memTunnelled (s : State) : Bool := bit s.tunWord.toNat 15

/-- Device address of a Memory window offset (R244). -/
def State.windowAddr (s : State) (o : Nat) : Nat := 2 ^ 36 * s.fld Reg.host.WIN_BASE 5 0 + o

/-- Has a Memory window access of the host not completed yet (R442)? -/
def State.windowBusy (s : State) : Bool :=
  s.host.waiting.any (fun x => x.reply.isNone) || s.host.tun.any (fun x => x.ofMem) || s.host.tunHeld.any (fun x => match x with
    | .req r => decide (2 ≤ r.kind)
    | .ctrl _ => false)

/-- Does a write that master `w` makes to offset `a` of the Register window take effect? -/
def State.takesWrite (s : State) (w : Writer) (a : Nat) : Bool :=
  s.serves w a && (match w with
    | .host => s.hostLink && !s.regTunnelled a
    | .mgmt => s.mgmtTakes a
    | .fp _ => s.up || s.starting)

/-! ## The sluices of the host's and the management port's accesses (R46, R399, R406) -/

/-- The PCIe sluice before an access of master `m` (the host, or a Flume): the state, and whether the access is lost. -/
def State.pcieSluice (s : State) (p : SluiceParity) (m : Nat := Master.host) : State × Bool :=
  let q := s.sluiceInject Reg.global.page 0 m
  if q.2 then q else q.1.sluiceParity p m

/-- The sluice of the management port. -/
def State.mgmtSluice (s : State) (p : SluiceParity) : State × Bool :=
  let q := s.sluiceInject Reg.global.page 3 Master.mgmt
  if q.2 then q else q.1.sluiceParity p Master.mgmt

/-- The sluice that a register access of the master crosses; a firmware processor's crosses none. -/
def State.writerSluice (s : State) (w : Writer) (p : SluiceParity) : State × Bool :=
  match w with
  | .host => if s.hostLink then s.pcieSluice p else (s, false)
  | .mgmt => if s.module.mgmtOn then s.mgmtSluice p else (s, false)
  | .fp _ => (s, false)

/-- A write of master `w` to offset `a` with the effect `f`: its sluice entry, then whether it is served. -/
def State.put (s : State) (w : Writer) (a : Nat) (f : State → State) (p : SluiceParity := .good) : State :=
  let q := s.writerSluice w p
  if !q.2 && q.1.takesWrite w a then f q.1 else q.1

/-- Will injection spoil the next sluice entry of the master (R406)? -/
def State.sluiceArmed (s : State) (w : Writer) : Bool :=
  match w with
  | .host => s.regBit (Reg.global.page + Reg.header.ERR_INJECT) 0
  | .mgmt => s.regBit (Reg.global.page + Reg.header.ERR_INJECT) 3
  | .fp _ => false

/-- Does a write of master `w` to offset `a` take effect, its sluice entry whole? -/
def State.takesClean (s : State) (w : Writer) (a : Nat) : Bool := s.takesWrite w a && !s.sluiceArmed w

end Sys2Proof.Machine
end

