-- ==== Sys2Proof/Machine/Segments.lean ====
section
/-! DEFINITION. Signals as they are sent (R183, R184, R202), segment boundaries (R185), starts and restarts of a barn (R192,
R202, R443). -/

namespace Sys2Proof.Machine

/-! ## SIGNAL_SEND -/

/-- Have the operations a SIGNAL waits for completed in every enabled engine (R183)? -/
def State.sigReady (s : State) (b : Nat) (g : SigEntry) : Bool :=
  (s.barnEngines b).all (fun e =>
    let x := s.engine e
    !x.winBefore g.seq && (!g.scopeA || !x.arrBefore g.seq) && (!g.scopeM || !x.movBefore g.seq))

/-- Send the SIGNAL at the head: suppressed in a replay, delivered, or refused where its counter would overflow (R184). -/
def State.sendSignal (s : State) (b : Nat) (g : SigEntry) : State :=
  let s := s.modBarn b (fun x => { x with sigQ := x.sigQ.drop 1 })
  if (s.barn b).suppress ≠ 0 then s.modBarn b (fun x => { x with suppress := x.suppress - 1 })
  else match s.deliver g.kind g.target g.token g.n with
    | some t => t.modBarn b (fun x => { x with segSignals := x.segSignals + 1 })
    | none => s.refuseAt b (.barn b) Cause.FORMAT g.pc

/-- SIGNAL_SEND (R183). -/
def execSignalSend (b : BarnId) (s : State) : Out :=
  .next (match (s.barn b).sigQ with
    | g :: _ => if !s.frozen (Master.barn b) && s.sigReady b g then s.sendSignal b g else s
    | [] => s)

/-! ## SEGMENT_BOUNDARY -/

/-- Is every queue of every enabled engine empty and every generator idle (R169)? -/
def State.queuesClear (s : State) (b : Nat) : Bool :=
  (s.barnEngines b).all (fun e =>
    let x := s.engine e
    x.iq.toList.all (fun l => l.isEmpty) && x.oq.toList.all (fun l => l.isEmpty)
      && x.gens.toList.all (fun g => g.cur.isNone && g.pend.isNone))

/-- Does a commit hold the barn at this main-bank boundary (R474)? -/
def State.boundaryHolds (s : State) (b : Nat) : Bool :=
  decide (s.tally.state = .committing) && s.touchesBarn b && (s.barn b).ccSave.isNone

/-- A barn that goes IDLE at its boundary; with `halt` its next segment waits for GO (R208, R210). -/
def State.goIdle (s : State) (b : Nat) (pc : BitVec 13) (halt : Bool) : State :=
  s.modBarn b (fun x =>
    let x : Barn := { x with phase := .idle, pc := pc, boundary := none, waiting := none, issued := 0, pageHalt := false }
    if halt then { x with snap := x.takeSnap, pendingRestart := true, segSignals := 0, suppress := 0,
                          waitSums := List.replicate 16 0, popped := [] } else x)

/-- Step 3 of R185 at a main-bank boundary; `swapped` where a swap has just applied. -/
def State.mainBoundary (s : State) (b : Nat) (y : Boundary) (swapped : Bool) : State :=
  let next : BitVec 13 := if swapped then 0 else y.addr + 1
  if y.stale ∨ (s.barn b).offApplied then s.goIdle b (if y.isEnd then 0 else next) false
  else if (s.barn b).pageHalt then s.goIdle b (if y.isEnd then 0 else next) true
  else if y.isEnd then s.goIdle b 0 false
  else if y.cc && !swapped && s.ccAllowed b then s.ccEnter b y.addr
  else s.modBarn b (fun x => ({ x with pc := next, issued := 0 } : Barn).beginSegment)

/-- The boundary goes on once nothing holds it: span, swap, units off line, then END, YIELD or catch-crop exit. -/
def State.passBoundary (s : State) (b : Nat) (y : Boundary) : State :=
  let s := s.applyBarnOffline b
  if (s.barn b).ccSave.isSome then
    let s := s.ccExit b y.isEnd y.addr
    if y.stale ∨ (s.barn b).offApplied then s.goIdle b (s.barn b).pc false
    else if (s.barn b).pageHalt then s.goIdle b (s.barn b).pc true
    else s
  else
    let s := s.countSpan b
    let sw := (s.barn b).swapPending
    let s := if sw then s.applySwap b else s
    let s := if sw && (s.span b).fromNew then s.takeTable b else s
    s.mainBoundary b y sw

/-- SEGMENT_BOUNDARY (R185): at an END or YIELD whose earlier work is done, the checks of R169 and R210, then shadows, swap
and the way on. -/
def execSegmentBoundary (b : BarnId) (s : State) : Out :=
  .next (match (s.barn b).boundary with
    | none => s
    | some y =>
      if s.frozen (Master.barn b) ∨ !s.barnDone b ∨ s.boundarySlice b then s
      else if y.held then (if s.boundaryHolds b then s else s.passBoundary b y)
      else if !s.queuesClear b then
        (s.modBarn b (fun x => { x with boundary := none })).refuseAt b (.barn b) Cause.FORMAT y.addr
      else
        let stale := (s.span b).live && s.epochDiffers (.barn b)
        let s := if stale then s.epochStale (.barn b) (Master.barn b) else s
        let y := { y with stale := y.stale || stale }
        if s.boundaryHolds b then s.modBarn b (fun x => { x with boundary := some { y with held := true } })
        else s.passBoundary b y)

/-! ## Starts and restarts -/

/-- Does a waiting commit hold barn `b` where it stands (R474)? -/
def State.commitHolds (s : State) (b : Nat) : Bool := decide (s.tally.state = .committing) && s.touchesBarn b

/-- START at a barn (R192): an IDLE barn that is neither frozen nor off line starts at word 0 of its active bank; a record
with REL = 2 is released (R216). A barn that a waiting commit holds starts after the commit (R474; assumption 106). -/
def State.startBarn (s : State) (b : Nat) : State :=
  if (s.barn b).phase = .idle ∧ !s.frozen (Master.barn b) ∧ !(s.barn b).offApplied ∧ s.up then
    if s.commitHolds b then s.modBarn b (fun x => { x with goHeld := some .start })
    else (s.modBarn b Barn.start).releaseSpan b 2
  else s

/-- START in SEQ_CTRL (R192). -/
def execStart (w : Writer) (b : BarnId) (s : State) : Out :=
  .next (s.put w (Reg.barn.SEQ_CTRL b) (fun s => s.startBarn b))

/-- A voided span is released again at the restart, whatever its REL (R225). -/
def State.releaseVoided (s : State) (b : Nat) : State :=
  let x := s.span b
  if x.voided then s.setSpan b { x with released := true, voided := false, timer := 0, segs := 0, missed := false, sub := 0 }
  else s

/-- GO in SEG_RESTART (R202): no effect with PENDING = 0 or while frozen; after the commit where one holds the barn (R474). -/
def State.segGo (s : State) (b : Nat) : State :=
  if (s.barn b).pendingRestart ∧ !s.frozen (Master.barn b) ∧ (s.barn b).phase = .idle ∧ !(s.barn b).offApplied then
    if s.commitHolds b then s.modBarn b (fun x => { x with goHeld := some .go })
    else ((s.modBarn b Barn.restart).releaseVoided b).spanSub b 4
  else s

/-- What a commit held back at barn `b`, once it holds the barn no longer. -/
def State.heldGo (s : State) (b : Nat) : State :=
  match (s.barn b).goHeld with
  | none => s
  | some k =>
    if s.commitHolds b then s
    else
      let s := s.modBarn b (fun x => { x with goHeld := none })
      match k with
      | .start => s.startBarn b
      | .go => s.segGo b

/-- SEG_RESTART_GO (R202). -/
def execSegRestartGo (w : Writer) (b : BarnId) (s : State) : Out :=
  .next (s.put w (Reg.barn.SEG_RESTART b) (fun s => s.segGo b))

/-- Does the host's Bell window take writes (R445, R448)? -/
def State.bellOpen (s : State) : Bool := s.hostLink && !s.frozen Master.host && decide (s.host.accMaj = 1)

end Sys2Proof.Machine
end

