-- ==== Sys2Proof/Machine/WeirOps.lean ====
section
/-! DEFINITION. What the Weir ports' commands share: CRC-32 (R300), packets taken and discarded (R308), credits (R304), the
arithmetic of reduction rows (R314 to R318, R324), landing (R317), checksum failures (R328), retirements of lanes and ports
(R303). -/

namespace Sys2Proof

/-! ## CRC-32 (R300) -/

/-- One bit of the reflected CRC-32. -/
def crcBit (c : BitVec 32) : BitVec 32 := if c.getLsbD 0 then (c >>> 1) ^^^ 0xEDB88320#32 else c >>> 1
/-- One byte. -/
def crcByte (c : BitVec 32) (b : Byte) : BitVec 32 :=
  let x := c ^^^ (b.setWidth 32)
  crcBit (crcBit (crcBit (crcBit (crcBit (crcBit (crcBit (crcBit x)))))))
/-- The IEEE 802.3 CRC-32 of a byte string. -/
def crc32 (bs : List Byte) : BitVec 32 := ~~~ (bs.foldl crcByte 0xFFFFFFFF#32)

end Sys2Proof

namespace Sys2Proof.Machine

/-- Does a flit's CRC hold: over the tag, as 3 bytes, and body bytes 0 to 635? -/
def flitCrc (tag : BitVec 20) (body : List Byte) : BitVec 32 := crc32 (leBytes 3 tag.toNat ++ body.take 636)

/-! ## Credits (R304) -/

/-- Index of a class's credit; 3 + j for REDUCE of job j. -/
def creditIx (cls job : Nat) : Nat := if cls = 0 then 3 + job else cls - 1

/-- A REDUCE share in 64-byte units: equal shares of the jobs with a live record on the port. -/
def State.reduceShare (s : State) (p : Nat) : Nat :=
  let n := (s.portJobs p).length
  if n = 0 then 0 else 262144 / n / 64

/-- Receive buffer of a credit index in 64-byte units. -/
def State.creditShare (s : State) (p i : Nat) : Nat :=
  if i < 2 then 1024 else if i = 2 then 256
  else if (s.portJobs p).contains (i - 3) then s.reduceShare p else 0

/-- Set the credits the port grants from the shares, and send those that have a share: all of them, or REDUCE only. -/
def State.setCredits (s : State) (p : Nat) (all : Bool) : State :=
  (List.range 19).foldl (fun s i =>
    if !all && decide (i < 3) then s
    else
      let x := s.port p
      let n := (x.taken.getD i 0).toNat + s.creditShare p i
      let s := s.modPort p (fun x => { x with granted := x.granted.set i (BitVec.ofNat 16 n) })
      if s.creditShare p i = 0 then s
      else s.sendSym p (if i < 3 then symCredit (i + 1) 0 n else symCredit 0 (i - 3) n)) s

/-- A received packet counts against the credit it was sent under. -/
def State.takeCredit (s : State) (p : Nat) (k : Packet) : State :=
  let n := BitVec.ofNat 16 (packetUnits k.payload.length)
  s.modPort p (fun x => { x with taken := x.taken.modify (creditIx k.fields.cls k.fields.job) (fun m => m + n) })

/-- The buffer of a packet that leaves it at once. -/
def State.freePacket (s : State) (p : Nat) (k : Packet) : State :=
  s.giveCredit p (creditIx k.fields.cls k.fields.job) (packetUnits k.payload.length)

/-! ## Tags -/

/-- Is a tag number of the port in use: held, or on a packet that waits to be sent? -/
def Port.tagBusy (x : Port) (n : Nat) : Bool :=
  x.held.any (fun h => decide (h.tag = n)) || x.txPk.toList.any (fun l => l.any (fun k => decide (k.fields.tag = n)))

/-- Take the next free tag number of a port. -/
def State.newTag (s : State) (p : Nat) : Nat × State :=
  let x := s.port p
  let i := ((List.range 512).find? (fun i => !x.tagBusy ((x.nextTag + i) % 512))).getD 0
  let n := (x.nextTag + i) % 512
  (n, s.modPort p (fun x => { x with nextTag := (n + 1) % 512 }))

/-! ## Packets this module makes -/

/-- Queue a packet on a port, by class. -/
def State.queuePacket (s : State) (p : Nat) (k : Packet) : State :=
  s.modPort p (fun x => { x with txPk := modAt x.txPk (min k.fields.cls 3) (fun l => l ++ [k]) })

/-- Are packets of the job sent with SLOW = 1 (R329)? -/
def State.slowFlag (s : State) (j : Nat) : Bool := (s.job j).slow

/-- A REDUCE packet of record `i` toward the ring neighbour; R306 gives the neighbour's node ID no place in a record, so DST is
a free value (assumption 3). -/
def State.sendReduce (s : State) (p kind i tile row : Nat) (payload : List Byte) : State :=
  let j := (s.collRec i).job
  let d := s.fresh
  let t := d.2.newTag p
  t.2.queuePacket p (mkPacket 0 kind j (s.slowFlag j) s.moduleId (d.1.toNat % 2 ^ 14) (s.roster j) t.1
    (reduceRest i tile row s.step10) payload)

/-! ## Received packets (R308) -/

/-- Kinds that a module takes (R307): a gateway's request kinds are not among them. -/
def kindTaken (cls kind : Nat) : Bool :=
  match cls with
  | 0 => decide (kind ≤ 4)
  | 1 => decide (kind ≤ 1)
  | 2 => decide (kind = 1) || decide (kind = 3)
  | 3 => decide (kind ≤ 4)
  | _ => false

/-- A packet of a class that its source may not send: a gateway's outside BULK (R308, R337). -/
def gatewayBad (h : Hdr) : Bool := decide (8192 ≤ h.src) && decide (h.cls ≠ 2)

/-- A packet that no state of the port would take: a kind not taken, or a gateway's packet outside BULK (R308). -/
def neverTaken (h : Hdr) : Bool := !kindTaken h.cls h.kind || gatewayBad h

/-- Has the port received a VERDICT or RESUME that waits to be taken? What follows it on the link is judged after it (R302,
R332). -/
def Port.stepSymWaits (x : Port) : Bool :=
  x.rxQ.any (fun r => match r with
    | .sym v => decide (symType v = Sym.RESUME) || decide (symType v = Sym.VERDICT)
    | .pkt _ => false)

/-- A packet of another roster or step, or of a job that stands aborted (R308). -/
def State.wrongStep (s : State) (h : Hdr) : Bool :=
  ((decide (h.cls = 0) || decide (h.cls = 1)) && decide (h.roster ≠ s.roster h.job))
    || (decide (h.cls = 0) && (decide (h.step ≠ s.step10) || (s.job h.job).aborted))

/-- A packet of a record that the port does not hold live: none of its job (R308), or an all-gather aborted by a late fault (R333). -/
def State.wrongRec (s : State) (h : Hdr) : Bool :=
  decide (h.cls = 0) && (!s.recOfJob h.job h.coll || ((s.job h.job).late && decide ((s.collRec h.coll).kind = 2)))

/-- Must the port discard the packet (R308, R331, R213, R428)? -/
def State.mustDiscard (s : State) (p : Nat) (k : Packet) : Bool :=
  let h := k.fields
  !s.up || (s.port p).offApplied || neverTaken h || s.wrongStep h || s.wrongRec h

/-- Must the port discard a packet on its way to another module (R308)? A record index is one of the module that it is for
(assumption 117). -/
def State.mustStop (s : State) (p : Nat) (k : Packet) : Bool :=
  gatewayBad k.fields || (s.wrongStep k.fields && !(s.port p).stepSymWaits)

/-- A discard: counted, the first of a step reported, the buffer freed. -/
def State.discardPacket (s : State) (p : Nat) (k : Packet) : State :=
  let s := (s.incFld (Reg.port.DISCARDS p) 31 0).freePacket p k
  if (s.port p).discardReported then s
  else (s.modPort p (fun x => { x with discardReported := true })).report (.port p)
    { cause := Cause.ROSTER, cls := Cls.corrected }

/-- Is the packet for this module? -/
def State.forThis (s : State) (k : Packet) : Bool :=
  decide (k.fields.dst = s.moduleId) || (decide (k.fields.cls = 3) && decide (k.fields.dst = 16383))

/-- Take a packet of a class and kind at the head of what the port received: discarded where it must be, else handled by
`f`. A packet that must wait (`wait`) stays, as one does whose memory accesses (`need`) wait for their stack or for a tag. -/
def State.onPacket (s : State) (p cls kind : Nat) (wait : Packet → Bool) (need : Packet → List (Nat × Nat))
    (f : State → Packet → State) : State :=
  match (s.port p).rxQ with
  | .pkt k :: rest =>
    if k.fields.cls = cls ∧ k.fields.kind = kind ∧ s.forThis k then
      if s.mustDiscard p k then (s.modPort p (fun x => { x with rxQ := rest })).discardPacket p k
      else if wait k then s
      else s.withAccess (Master.port p) (need k) (fun s => f (s.modPort p (fun x => { x with rxQ := rest })) k)
    else s
  | _ => s

/-- The first symbol of a type among what was received, and the rest; RESUME and VERDICT do not overtake a packet (R302,
R332). -/
def takeSym (ty : Nat) : List RxItem → Option (BitVec 64 × List RxItem)
  | [] => none
  | .sym v :: rest => if symType v = ty then some (v, rest) else (takeSym ty rest).map (fun x => (x.1, .sym v :: x.2))
  | .pkt k :: rest =>
    if ty = Sym.RESUME ∨ ty = Sym.VERDICT then none else (takeSym ty rest).map (fun x => (x.1, .pkt k :: x.2))

/-- Take the oldest received symbol of a type and handle it by `f`. -/
def State.onSymbol (s : State) (p ty : Nat) (f : State → BitVec 64 → State) : State :=
  match takeSym ty (s.port p).rxQ with
  | some x => f (s.modPort p (fun y => { y with rxQ := x.2 })) x.1
  | none => s

/-! ## Progress of the collective records -/

/-- Progress of record `i`. -/
def State.prog (s : State) (i : Nat) : CollProg := (s.coll.find? (fun c => decide (c.idx = i))).getD ⟨i, 0, 0, 0, 0, 0, 0, [], false, 0, 0, 0⟩
/-- Change it. -/
def State.modProg (s : State) (i : Nat) (f : CollProg → CollProg) : State :=
  let c := f (s.prog i)
  { s with coll := s.coll.filter (fun x => decide (x.idx ≠ i)) ++ [c] }

/-- Tiles whose owner is the ring position after this one: their packets are not sent on. -/
def CollRec.nextPos (r : CollRec) : Nat := (r.pos + 1) % r.ring

/-- Has a reduce-scatter record completed (R319)? -/
def State.reduceDone (s : State) (i : Nat) (r : CollRec) : Bool :=
  let c := s.prog i
  let per := 128
  decide (c.tacked = (r.tiles - r.owned r.pos) * per) && decide (c.landed = r.owned r.pos * per)

/-- Packets of one tile in an all-gather: its exponents, and its rows with a finite verdict (R320). -/
def State.gatherPer (s : State) (j : Nat) : Nat := if s.fld (Reg.global.VERDICT j) 1 0 = 1 then 129 else 1

/-- The record an all-gather distributes: its TILES and EXP_BASE (R320). -/
def State.pairRec (s : State) (r : CollRec) : CollRec := s.collRec r.pairIx

/-- An all-gather record's ring and ports over its pair's tiles. -/
def State.gatherRec (s : State) (r : CollRec) : CollRec :=
  { r with tiles := (s.pairRec r).tiles, expBase := (s.pairRec r).expBase }

/-- Has an all-gather record completed (R320 step 5)? -/
def State.gatherDone (s : State) (i : Nat) (r : CollRec) : Bool :=
  let g := s.gatherRec r
  let c := s.prog i
  let n := s.gatherPer r.job
  c.agStarted && decide (c.agTacked = (if g.ring = 1 then 0 else (g.tiles - g.owned g.nextPos) * n))
    && decide (c.agWritten = (if g.ring = 1 then 0 else (g.tiles - g.owned g.pos) * n))
    && decide (c.agToSend = g.owned g.pos * n)

/-- Has an agreement record completed (R323)? -/
def State.agreeDone (s : State) (i : Nat) (r : CollRec) : Bool :=
  let c := s.prog i
  decide (c.landed = r.owned r.pos) && decide (c.tacked = r.tiles - r.owned r.pos)
    && decide (c.agTacked = (if r.ring = 1 then 0 else r.tiles - r.owned r.nextPos))
    && decide (c.agWritten = (if r.ring = 1 then 0 else r.tiles - r.owned r.pos))

/-- Has a record completed? A verdict record does with the verdict (R321). -/
def State.recDone (s : State) (i : Nat) (r : CollRec) : Bool :=
  match r.kind with
  | 0 | 1 => s.reduceDone i r
  | 2 => s.gatherDone i r
  | 3 => decide (s.fld (Reg.global.VERDICT r.job) 1 0 ≠ 0)
  | _ => s.agreeDone i r

/-! ## Reduction rows (R314 to R316) -/

/-- Cut a row's bytes into `n` blocks by their widths; the bytes left over. -/
def parseBlocks : Nat → List Byte → List RBlock × List Byte
  | 0, bs => ([], bs)
  | n + 1, bs =>
    let b := RBlock.parse bs
    let r := parseBlocks n (bs.drop (rbBytes b.width))
    (b :: r.1, r.2)

/-- The four blocks of a row, and its trailer. -/
def rowBlocks (bs : List Byte) : List RBlock × List Byte := parseBlocks 4 bs

/-- One element of R314: the sum, and what it takes out of the checksum. -/
def addElem (a b : Option Int) (w : Int) : Option Int × Int :=
  match a, b with
  | some x, some y => if (x + y).natAbs ≤ 2 ^ 31 - 1 then (some (x + y), 0) else (none, w * (x + y))
  | some x, none => (none, w * x)
  | none, some y => (none, w * y)
  | none, none => (none, 0)

/-- Two blocks of one exponent and origin added (R314): the block, and adj. -/
def addBlock (c : Nat) (a b : RBlock) : RBlock × Int :=
  let width := max a.width b.width
  let es := ((a.elems.zip b.elems).zipIdx).map (fun x => addElem x.1.1 x.1.2 (32 * c + x.2 + 1 : Nat))
  let ms := es.map (fun x => x.1)
  let grew := ms.any (fun o => match o with
    | some i => !inRange (rbWidth width) i
    | none => false)
  let nf := firstIdx (fun o => decide (o = none)) ms 0
  ({ x := a.x, width := if grew then 2 else width, origin := a.origin, promoted := a.promoted || b.promoted || grew,
     nf := nf.isSome, nfIndex := nf.getD 0, elems := ms }, es.foldl (fun n x => n + x.2) 0)

/-- Did the addition promote the block? -/
def grewBlock (a b o : RBlock) : Bool := decide (max a.width b.width ≠ o.width)

/-- Do two rows agree in exponent and origin, block by block? -/
def rowsMatch (a b : List RBlock) : Bool := (a.zip b).all (fun x => decide (x.1.x = x.2.x) && decide (x.1.origin = x.2.origin))

/-- The sum of two rows with C_out (R316). -/
def addRows (a b : List RBlock) (ca cb : BitVec 64) : List RBlock × BitVec 64 :=
  let r := ((a.zip b).zipIdx).map (fun x => addBlock x.2 x.1.1 x.1.2)
  (r.map (fun x => x.1), ca + cb - BitVec.ofInt 64 (r.foldl (fun n x => n + x.2) 0))

/-- Bytes of a row without its trailer. -/
def rowBytes (bs : List RBlock) : List Byte := bs.flatMap RBlock.bytes

/-- The next exponent of a reduced block (R318). -/
def nextX (b : RBlock) (headroom : Nat) : Nat :=
  let m := b.elems.foldl (fun n o => match o with
    | some i => max n i.natAbs
    | none => n) 0
  if m = 0 then b.x
  else
    let xn : Int := (Nat.log2 m : Int) + b.x - 127 - rbGrain b.origin + 128 + headroom
    let xn := if b.promoted then max xn (b.x + 1) else xn
    (min (max xn 1) 254).toNat

/-! ## Float rows (R324) -/

/-- Format of a float record. -/
def CollRec.fmt (r : CollRec) : FloatFmt := if r.ffmt = 0 then fmtBF16 else fmtFP32
/-- Elements of a float row. -/
def CollRec.floats (r : CollRec) (bs : List Byte) : List Nat :=
  (List.range 128).map (fun q => packedElem bs r.fmt.width q)
/-- Bytes of a float row without its trailer. -/
def CollRec.floatBytes (r : CollRec) (xs : List Nat) : List Byte := packBytes r.fmt.width xs
/-- Is any element not finite? -/
def CollRec.floatNf (r : CollRec) (xs : List Nat) : Bool := xs.any (fun w => !(r.fmt.decode w).isFinite)
/-- The sum, upstream first: one addition in the format, nearest, ties to even. -/
def CollRec.addFloats (r : CollRec) (a b : List Nat) : List Nat :=
  (a.zip b).map (fun x => r.fmt.encode .nearest false ((r.fmt.decode x.1).add (r.fmt.decode x.2)))

/-- May the agreement and reduce work of a job run on the module? A late fault leaves it alone (R333). -/
def State.jobRuns (s : State) (j : Nat) : Bool := !(s.job j).aborted

/-! ## Landing (R317, R318) -/

/-- FP32 words of a block row (R113): a marker becomes canonical NaN. -/
def rowWords (bs : List RBlock) : List Byte :=
  bs.flatMap (fun b => b.elems.flatMap (fun o => leBytes 4 (F32.ofVal (b.elemVal o)).toNat))
/-- A block as LAND mode 3 writes it: elements sign-extended to 32 bits, its header kept. -/
def rawBlock (b : RBlock) : List Byte :=
  leBytes 4 b.header ++ b.elems.flatMap (fun o => match o with
    | none => leBytes 4 (2 ^ 31)
    | some i => leBytes 4 (i % (2 ^ 32 : Nat)).toNat)

/-- Bytes that a row of the record lands as. -/
def CollRec.landBytes (r : CollRec) : Nat := if r.land = 3 then 528 else 512
/-- The memory accesses of the landing of row `p` of tile `t`; with the last row of blocks, the tile's next exponents (R318). -/
def CollRec.landNeeds (r : CollRec) (t p : Nat) : List (Nat × Nat) :=
  (r.landAddr t p, r.landBytes) :: (if r.kind = 0 ∧ p = 127 then [(r.expBase + (r.tiles + t) * 512, 512)] else [])
/-- Is the row landed through Mill adders that a slice tests (R228, R317)? -/
def State.landSliced (s : State) (r : CollRec) (t p : Nat) : Bool :=
  (decide (r.land = 1) || decide (r.land = 2))
    && (s.sliceHoldsMill (addrStack (r.landAddr t p)) || s.sliceHoldsMill (addrStack (r.landAddr t p + 511)))
/-- Does the landing wait (T3, a slice)? -/
def State.landWaits (s : State) (r : CollRec) (t p : Nat) : Bool := s.anyWaits (r.landNeeds t p) || s.landSliced r t p

/-- The SEND port writes landed bytes by the LAND mode; whether memory took them. -/
def State.landWrite (s : State) (r : CollRec) (t p : Nat) (words raw : List Byte) : State × Bool :=
  let a := r.landAddr t p
  let m := Master.port r.send
  match r.land with
  | 0 => s.memWrite m a words
  | 1 => s.millRun m 3 0 a words
  | 2 => s.millRun m 0 0 a words
  | _ => s.memWrite m a raw

/-- A row is landed: counted; memory that refused it aborts the step (assumption 18). -/
def State.landed (s : State) (i : Nat) (j : Nat) (ok : Bool) : State :=
  if ok then s.modProg i (fun c => { c with landed := c.landed + 1 })
  else s.stepFault Cause.MEM_UNCORRECTABLE (some j)

/-- The owner lands a row of blocks (R317), and after row 127 writes the tile's exponent record (R318). -/
def State.landBlocks (s : State) (p i : Nat) (r : CollRec) (t row : Nat) (bs : List RBlock) : State :=
  let nf := (bs.filter (fun b => b.nf)).length
  let q := s.landWrite r t row (rowWords bs) (bs.flatMap rawBlock)
  let s := if q.2 then q.1.addFld (Reg.port.NF_BLOCKS p) 31 0 nf else q.1
  let s := if q.2 ∧ nf ≠ 0 then s.modJob r.job (fun x => { x with nf := true }) else s
  let s := s.landed i r.job q.2
  let xs := bs.map (fun b => BitVec.ofNat 8 (nextX b r.headroom))
  let s := s.modProg i (fun c => { c with exps := (if row = 0 then [] else c.exps) ++ xs })
  if row = 127 then
    let w := s.memWrite (Master.port r.send) (r.expBase + (r.tiles + t) * 512) (s.prog i).exps
    if w.2 then w.1 else w.1.stepFault Cause.MEM_UNCORRECTABLE (some r.job)
  else s

/-- The owner lands a float row. -/
def State.landFloats (s : State) (i : Nat) (r : CollRec) (t row : Nat) (xs : List Nat) (nf : Bool) : State :=
  let words := xs.flatMap (fun w => leBytes 4 (F32.ofVal (r.fmt.decode w)).toNat)
  let q := s.landWrite r t row words words
  (if q.2 ∧ nf then q.1.modJob r.job (fun x => { x with nf := true }) else q.1).landed i r.job q.2

/-! ## Retirements (R303) -/

/-- Flumes with a bulk request on the port. -/
def State.flumesOn (s : State) (p : Nat) : List Nat :=
  (List.range 32).filter (fun f => match (s.flume f).cur with
    | some t => decide (t.d.weirPort = p) && !(s.flume f).bulk.isEmpty
    | none => false)

/-- A port retires: it sends nothing further; its collectives with a packet unacknowledged abort the step, its Flumes their
tasks. -/
def State.retirePort (s : State) (p : Nat) : State :=
  let x := s.port p
  if x.retired then s
  else if s.sliceHoldsPort p then s.holdAct (.port p)
  else
    let jobs := (List.range 16).filter (fun j => x.held.any (fun h => decide (h.pkt.fields.cls = 0) && decide (h.pkt.fields.job = j)))
    let fl := s.flumesOn p
    let s := s.modPort p (fun x => { x with retired := true, link := .retired, txSyms := [], txPk := Vector.replicate 4 [],
                                            txBuf := [], telQ := [] })
    let ev : LateReport := ⟨.port p, Cause.LINK_RETIRE, Cls.retiring, false, Master.none, 0⟩
    let s := s.advanceEpoch
    let s := match jobs with
      | [] => s.sayLate ev
      | j :: js => js.foldl (fun s j => s.stepFault Cause.LINK_RETIRE (some j)) (s.stepFault Cause.LINK_RETIRE (some j) (some ev))
    fl.foldl (fun s f => s.flumeAbort f { cause := Cause.LINK_RETIRE }) s

/-- Lanes outside `mask` retire; a second lane retires the port. The answer: were lanes retired and the port not? -/
def State.retireLanes (s : State) (p : Nat) (mask : BitVec 4) : State × Bool :=
  let x := s.port p
  let gone := x.lanes &&& ~~~ mask
  if gone = 0 then (s, false)
  else
    let all := x.lanesRetired ||| gone
    if 2 ≤ popcount8 all.toNat then
      ((s.modPort p (fun x => { x with lanesRetired := all, lanes := x.lanes &&& mask })).retirePort p, false)
    else
      let s := s.modPort p (fun x => { x with lanesRetired := all, lanes := x.lanes &&& mask })
      ((s.report (.port p) { cause := Cause.LINK_RETIRE, cls := Cls.retiring }).advanceEpoch, true)

/-! ## Checksum failures (R328) -/

/-- A mismatch is counted on the port; how many lie in the window with it. -/
def State.countCsum (s : State) (p : Nat) : State × Nat :=
  let us := 1000 * s.fld (Reg.port.CSUM_WINDOW p) 23 0
  let n := (windowed s.time us (s.port p).csumTimes).length + 1
  ((s.modPort p (fun x => { x with csumTimes := x.csumTimes ++ [s.time] })).incFld (Reg.port.CSUM_COUNT p) 15 8, n)

/-- The report of a checksum mismatch. -/
def State.reportCsum (s : State) (p cls : Nat) (inj : Bool) : State :=
  s.report (.port p) { cause := Cause.REDUCE_CHECKSUM, cls := cls, inj := inj }

/-- An upstream row's mismatch: resent; the second in the window makes the port SUSPECT and FP-L asks for a LINK slice; a
mismatch while SUSPECT retires it. -/
def State.upstreamBad (s : State) (p : Nat) : State :=
  let r := s.countCsum p
  let s := r.1
  if (s.port p).suspect then (s.reportCsum p Cls.retiring false).retirePort p
  else if 2 ≤ r.2 then
    let s := (s.reportCsum p Cls.transient false).modPort p (fun x => { x with suspect := true })
    if (s.fp 2).state = .running ∧ !s.frozen (Master.fp 2) then s.sliceRequest (.fp 2) ⟨0xB, p⟩ else s
  else s.reportCsum p Cls.transient false

/-- A mismatch of the adder's output: the step aborts; the second in the window retires the port. -/
def State.adderBad (s : State) (p j : Nat) (inj : Bool) : State :=
  let r := s.countCsum p
  if 2 ≤ r.2 then (r.1.reportCsum p Cls.retiring inj).retirePort p
  else r.1.stepFault Cause.REDUCE_CHECKSUM (some j) (some ⟨.port p, Cause.REDUCE_CHECKSUM, Cls.contained, inj, Master.none, 0⟩)

/-- A mismatch of a local row: the step aborts. -/
def State.localBad (s : State) (p j : Nat) : State :=
  (s.countCsum p).1.stepFault Cause.REDUCE_CHECKSUM (some j) (some ⟨.port p, Cause.REDUCE_CHECKSUM, Cls.contained, false, Master.none, 0⟩)

/-- A FORMAT of a collective (R311, R314): reported in class Contained, and the step aborts. -/
def State.collFormat (s : State) (p j : Nat) : State :=
  s.stepFault Cause.FORMAT (some j) (some ⟨.port p, Cause.FORMAT, Cls.contained, false, Master.none, 0⟩)

/-! ## One row at a send port (R313) -/

/-- A row whose contributions are all in: landed by the owner, else sent on. -/
def State.rowOn (s : State) (p i : Nat) (r : CollRec) (t row : Nat) (bs : List RBlock) (c : BitVec 64) : State :=
  let s := s.modPort p (fun x => { x with rowsDone := x.rowsDone + 1 })
  if r.owner t = r.pos then s.landBlocks p i r t row bs
  else s.sendReduce p 0 i t row (rowBytes bs ++ leBytes 8 c.toNat)

/-- The same for a float row. -/
def State.floatOn (s : State) (p i : Nat) (r : CollRec) (t row : Nat) (xs : List Nat) (nf : Bool) : State :=
  let s := s.modPort p (fun x => { x with rowsDone := x.rowsDone + 1 })
  if r.owner t = r.pos then s.landFloats i r t row xs nf
  else s.sendReduce p 1 i t row (r.floatBytes xs ++ leBytes 8 (b2n nf))

/-- Is this position the first to contribute to tile `t`, after which nothing is added here? -/
def CollRec.first (r : CollRec) (t : Nat) : Bool := decide ((r.owner t + 1) % r.ring = r.pos)

/-- Does a local row carry its own checksum (R313 step 2)? A float row carries none (R324). -/
def CollRec.localGood (r : CollRec) (d : List Byte) : Bool :=
  decide (r.kind = 1) || decide ((rowBlocks d).2 = leBytes 8 (rowChecksum (rowBlocks d).1).toNat)

/-- A local row reaches the send port and is checked: the first contribution goes on at once, every other waits for the adder. Once
the step has aborted no further row is taken. -/
def State.localRow (s : State) (p i : Nat) (r : CollRec) (t row : Nat) (d : List Byte) : State :=
  if !s.jobRuns r.job then s
  else if !r.localGood d then s.localBad p r.job
  else if r.first t then
    if r.kind = 1 then let xs := r.floats d; s.floatOn p i r t row xs (r.floatNf xs)
    else let bs := (rowBlocks d).1; s.rowOn p i r t row bs (rowChecksum bs)
  else s.modPort p (fun x => { x with localRows := x.localRows ++ [⟨i, t, row, d, s.time⟩] })

/-- All 128 rows of a local tile. -/
def State.localTile (s : State) (p i : Nat) (r : CollRec) (t : Nat) (rows : List (List Byte)) : State :=
  let s := s.modProg i (fun c => { c with nextTile := t + 1 })
  (rows.zipIdx).foldl (fun s x => s.localRow p i r t x.2 x.1) s

/-- Are the rows of a local tile landed as they come (R313, a ring of one)? -/
def CollRec.landsAtOnce (r : CollRec) (t : Nat) : Bool := r.first t && decide (r.owner t = r.pos)
/-- The memory accesses of a local tile. -/
def CollRec.tileNeeds (r : CollRec) (t : Nat) : List (Nat × Nat) :=
  if r.landsAtOnce t then (List.range 128).flatMap (r.landNeeds t) else []
/-- Must a local tile wait because a row of it would land through adders under test? -/
def State.tileSliced (s : State) (r : CollRec) (t : Nat) : Bool := r.landsAtOnce t && (List.range 128).any (s.landSliced r t)

/-! ## Slow members (R329) -/

/-- Do upstream rows of the record's next tile wait in the step buffer? -/
def State.upstreamWaits (s : State) (i : Nat) (r : CollRec) : Bool :=
  (s.port r.recv).upRows.any (fun u => decide (u.coll = i) && decide (u.tile = (s.prog i).nextTile))

/-- Is a record a live reduce-scatter that has not completed? -/
def State.reducing (s : State) (i : Nat) (r : CollRec) : Bool :=
  r.isReduce && decide (r.phase = (s.job r.job).map) && !s.reduceDone i r

/-- A tick counts for each record whose upstream rows wait. -/
def State.slowTick (s : State) : State :=
  (s.collRecs.filter (fun x => s.reducing x.1 x.2 && s.upstreamWaits x.1 x.2)).foldl
    (fun s x => s.modProg x.1 (fun c => { c with waited := c.waited + 1 })) s

/-- Does the port serve record `i` now: every earlier live reduce-scatter record of the job on the port has had its tiles
(R312)? -/
def State.servesRec (s : State) (i : Nat) (r : CollRec) : Bool :=
  (s.liveRecs r.job).all (fun x => !(decide (x.1 < i) && x.2.isReduce && decide (x.2.send = r.send))
    || decide ((s.prog x.1).nextTile = x.2.tiles))

end Sys2Proof.Machine
end

