-- ==== Sys2Proof/Machine/TallyOps.lean ====
section
/-! DEFINITION. What the Tally's steps share: values under commit, the commit checks (R252, R288, R310, R472), admission (R214 to
R226), the apply of shadows (R474). -/

namespace Sys2Proof.Machine

/-! ## Values under commit -/

/-- The RWS bits of a register. -/
def rwsMask (a : Nat) : Word := match regDef? a with
  | some d => d.rws
  | none => 0

/-- A register's word with a shadow applied to its RWS bits. -/
def mergeRws (a : Nat) (old v : Word) : Word := (old &&& ~~~ (rwsMask a)) ||| (v &&& rwsMask a)

/-- The shadow of a register. -/
def State.shadow (s : State) (a : Nat) : Option Shadow := s.tally.shadows.find? (fun x => decide (x.addr = a))
/-- The value a register holds once the transaction applies. -/
def State.after (s : State) (a : Nat) : Word := match s.shadow a with
  | some x => mergeRws a (s.reg a) x.val
  | none => s.reg a
def State.afterFld (s : State) (a hi lo : Nat) : Nat := (s.after a).field hi lo
def State.afterPair (s : State) (lo hi : Nat) : Nat := (s.after lo).toNat + 2 ^ 32 * (s.after hi).toNat
/-- Is a register shadowed? -/
def State.shadowed (s : State) (a : Nat) : Bool := (s.shadow a).isSome

/-! ## Commit checks of the touched pages (R472 step 3) -/

/-- A table of `n` records of `w` bytes as numbers. -/
def tableOf (w n : Nat) (d : List Byte) : List Nat := (List.range n).map (fun i => leNat ((d.drop (w * i)).take w))

/-- A table as a commit reads it by master `m`: its records, or none where a line is uncorrectable or its channel is gone (R245,
R261), after the report. -/
def State.readTable (s : State) (m a w n : Nat) : State × Option (List Nat) :=
  let r := s.memRead m a (w * n)
  (r.1, r.2.map (tableOf w n))

/-- Two reduce-scatter records of one job, map, SEND port and LAYER (R310). -/
def collClash (rs : List CollRec) : Bool :=
  let red := (rs.zipIdx).filter (fun x => x.1.isReduce)
  red.any (fun x => red.any (fun y => decide (x.2 < y.2) && decide (x.1.job = y.1.job) && decide (x.1.phase = y.1.phase)
    && decide (x.1.send = y.1.send) && decide (x.1.layer = y.1.layer)))

/-- What R310 finds in a collective table: the cause of its refusal. -/
def State.collJudge (s : State) (ps : List Nat) : Option Nat :=
  let rs := ps.map collRecOf
  let bad (P : Nat) : Bool :=
    let r := collRecOf P
    !collReservedOk P || decide (r.ring ≤ r.pos) || decide (24 ≤ r.send) || decide (24 ≤ r.recv)
      || (decide (r.kind = 2) && (match rs[r.pairIx]? with
          | some q => !q.isReduce
          | none => true))
      || (r.bucket && decide (r.bucketTiles = 0))
  if ps.any bad || collClash rs then some Cause.FORMAT
  else if rs.any (fun r => (s.port r.send).retired || (s.port r.recv).retired) then some Cause.EPOCH_STALE
  else none

/-- Does the transaction bring a collective table? -/
def State.newColls (s : State) : Bool :=
  s.shadowed Reg.global.COLL_TABLE_LO || s.shadowed Reg.global.COLL_TABLE_HI || s.shadowed Reg.global.COLL_CTRL
/-- Its address and its records. -/
def State.collAfter (s : State) : Nat × Nat :=
  (s.afterPair Reg.global.COLL_TABLE_LO Reg.global.COLL_TABLE_HI, s.afterFld Reg.global.COLL_CTRL 9 0)

/-- The collective check of R310: the state after its reads, with the records that the ports take from them, and the cause of the first
refusal. -/
def State.collCheck (s : State) : State × Option Nat :=
  if s.newColls then
    let r := s.readTable Master.none s.collAfter.1 64 s.collAfter.2
    match r.2 with
    | some ps =>
      ({ r.1 with tally := { r.1.tally with nextColls := ps.map (fun P => BitVec.ofNat 512 P) } }, s.collJudge ps)
    | none => (r.1, some Cause.MEM_UNCORRECTABLE)
  else (s, none)

/-- Largest element of the descriptors a Flume holds. -/
def Flume.maxElem (x : Flume) : Nat :=
  max (match x.cur with
    | some t => t.d.elem
    | none => 0) (match x.nxt with
    | some d => d.2.elem
    | none => 0)

/-- The Headgate check of R288. -/
def State.headgateBad (s : State) (f : Nat) : Bool :=
  s.shadowed (Reg.flume.HG_BURST f) &&
    decide (s.afterFld (Reg.flume.HG_BURST f) 23 0 < max 4096 (s.flume f).maxElem)

/-- What R252 finds in a kernel table: does it refuse? -/
def State.kernelJudge (s : State) (k n : Nat) (ps : List Nat) : Bool :=
  let single := decide (s.afterFld (Reg.mkv.MK_CTRL k) 11 11 = 1)
  let b0 := 2 ^ 20 * s.afterFld (Reg.mkv.GEN_BASE0 k) 17 0
  let b1 := 2 ^ 20 * s.afterFld (Reg.mkv.GEN_BASE1 k) 17 0
  decide (1024 < n) || ps.any (fun P => !kernelOk P single b0 b1) || (!single && genOverlap (ps.map kernelRecOf) b0 b1)

/-- Does the transaction bring a kernel table of stack `k`? -/
def State.newKernels (s : State) (k : Nat) : Bool :=
  s.shadowed (Reg.mkv.MK_TABLE_LO k) || s.shadowed (Reg.mkv.MK_TABLE_HI k) || s.shadowed (Reg.mkv.MK_CTRL k)
/-- Its address and its records. -/
def State.kernelAfter (s : State) (k : Nat) : Nat × Nat :=
  (s.afterPair (Reg.mkv.MK_TABLE_LO k) (Reg.mkv.MK_TABLE_HI k), s.afterFld (Reg.mkv.MK_CTRL k) 10 0)

/-- The kernel table check of R252, read by the vector unit. -/
def State.kernelCheck (s : State) (k : Nat) : State × Option Nat :=
  if s.newKernels k then
    let r := s.readTable (Master.mill k) (s.kernelAfter k).1 64 (s.kernelAfter k).2
    (r.1, match r.2 with
      | some ps => if s.kernelJudge k (s.kernelAfter k).2 ps then some Cause.FORMAT else none
      | none => some Cause.MEM_UNCORRECTABLE)
  else (s, none)

/-- Checks one after the other until one refuses. -/
def State.firstCheck (s : State) : List (State → State × Option Nat) → State × Option Nat
  | [] => (s, none)
  | f :: fs =>
    let r := f s
    match r.2 with
    | some c => (r.1, some c)
    | none => State.firstCheck r.1 fs

/-- The checks of the touched pages in ascending page address: device global, Flumes, Mill vector units. -/
def State.pageChecks (s : State) : State × Option Nat :=
  s.firstCheck ([fun s => s.collCheck, fun s => (s, if (List.range 32).any s.headgateBad then some Cause.FORMAT else none)]
    ++ (List.range 16).map (fun k => fun s => s.kernelCheck k))

/-! ## Admission (R214 to R226) -/

/-- ceil(a / b). -/
def ceilDiv (a b : Nat) : Nat := (a + b - 1) / b

/-- LAT_p (R218). -/
def State.pathLat (s : State) (p : Nat) : Nat := s.fld (Reg.tally.ADM_LAT p) 15 0
/-- Does a port in service run on three lanes (R218)? -/
def State.threeLanes (s : State) : Bool :=
  s.ports.toList.any (fun x => !x.retired && !x.offApplied && decide (x.link = .up)
    && decide (popcount8 x.lanes.toNat = 3))
/-- RATE_p as ADM_RATEp reads; a rate of 0 counts as 1 (R238). -/
def State.rateReg (s : State) (p : Nat) : Nat :=
  if p = 4 ∧ s.threeLanes then 72000 else s.fld (Reg.tally.ADM_RATE p) 23 0
def State.pathRate (s : State) (p : Nat) : Nat := max 1 (s.rateReg p)

/-- span_ps without the catch-crop term (R219). -/
def State.spanOwn (s : State) (r : AdmRec) : Nat :=
  let floor := s.module.floorPs
  let t := r.beats * floor + r.fallowUs * 1000000
  (List.range 5).foldl (fun t p =>
    t + r.n.getD p 0 * s.pathLat p * 1000 + ceilDiv (1000000 * r.x.getD p 0) (s.pathRate p)
      + (ceilDiv (1000000 * r.y.getD p 0) (s.pathRate p) - r.beats * floor)) t

/-- span_ps (R219). A catch-crop record has no entries of its own (R215). -/
def State.spanPs (s : State) (recs : List AdmRec) (r : AdmRec) : Nat :=
  s.spanOwn r +
    (if r.ccEntries = 0 then 0
     else match recs[r.ccRec]? with
      | some cc => r.ccEntries * (s.spanOwn cc + (256 * r.ccBins + 32) * s.module.floorPs)
      | none => 0)

/-- The checks of R215 on one record, with R226's on REL. -/
def admRecBad (cadence : Bool) (recs : List AdmRec) (P : Nat) : Bool :=
  let r := admRecOf P
  !admReservedOk P || decide (r.segCount = 0) || (r.catchCrop && decide (r.deadline ≠ 0))
    || (decide (r.ccEntries ≠ 0) && decide (r.ccRec = 0x7FF))
    || (decide (r.ccRec ≠ 0x7FF) && (match recs[r.ccRec]? with
        | some c => !(decide (c.barn = r.barn) && c.catchCrop && decide (c.ccEntries = 0))
        | none => true))
    || (decide (r.rel = 1) && !cadence)

/-- What admission answers: refused with a cause, whether the committing master freezes, the first failing record where one fails,
and the shortfall that ADM_MARGIN shows of a deadline check; or admitted with the smallest slack. -/
inductive AdmOut where
  | refused (cause : Nat) (freeze : Bool) (failRec : Option Nat) (margin : Option Nat)
  | admitted (recs : List AdmRec) (margin : Nat)

/-- ENGINE_EN of a barn as a mask (R196). -/
def State.engineEn (s : State) (b : Nat) : Nat :=
  (List.range 8).foldl (fun n i => n + 2 ^ i * b2n (s.enabled (8 * b + i))) 0

/-- Does ENG_MASK name an absent position? -/
def State.namesAbsent (s : State) (r : AdmRec) : Bool :=
  (List.range 8).any (fun i => bit r.engMask i && !s.present (8 * r.barn + i))

/-- Index of the first record that meets a test. -/
def firstRec {α : Type} (l : List α) (f : α → Bool) : Option Nat := (l.zipIdx.find? (fun x => f x.1)).map (fun x => x.2)

/-- Does a record fail the cadence check (R226)? -/
def cadenceLate (period : Nat) (r : AdmRec) : Bool := decide (r.rel = 1) && (decide (period = 0) || decide (period * 1000 < r.deadline))

/-- Admission of the records of the shadowed table (R220). Each check is made of every record before the next check is made of any, so
that UNIT_ABSENT of a later record comes before EPOCH_STALE of an earlier one (assumption 104). -/
def State.judgeRecs (s : State) (n : Nat) (ps : List Nat) : AdmOut :=
  let cadence := decide (s.afterFld Reg.tally.ADM_CTRL 11 11 = 1)
  let recs := ps.map admRecOf
  let period := s.afterFld Reg.tally.CAD_PERIOD 23 0
  let unswapped (r : AdmRec) : Bool := decide ((s.barn r.barn).phase ≠ .idle) && !s.shadowed (Reg.barn.BANK_SWAP r.barn)
  let masked (r : AdmRec) : Bool := decide (r.engMask ≠ s.engineEn r.barn)
  let late (r : AdmRec) : Bool := decide (r.deadline ≠ 0) && decide (r.deadline * 1000 < s.spanPs recs r)
  if 1024 < n then .refused Cause.FORMAT false none none
  else match firstRec ps (admRecBad cadence recs) with
  | some i => .refused Cause.FORMAT false (some i) none
  | none => match firstRec recs unswapped with
  | some i => .refused Cause.FORMAT false (some i) none
  | none => match firstRec recs s.namesAbsent with
  | some i => .refused Cause.UNIT_ABSENT true (some i) none
  | none => match firstRec recs masked with
  | some i => .refused Cause.EPOCH_STALE false (some i) none
  | none =>
    if cadence ∧ (period = 0 ∨ recs.any (cadenceLate period)) then
      let i := firstRec recs (cadenceLate period)
      .refused Cause.DEADLINE_SHORT false i ((i.bind (fun i => recs[i]?)).map (fun r => r.deadline - period * 1000))
    else match recs.zipIdx.find? (fun x => late x.1) with
    | some x => .refused Cause.DEADLINE_SHORT false (some x.2) (some (ceilDiv (s.spanPs recs x.1 - x.1.deadline * 1000) 1000))
    | none =>
      .admitted recs ((recs.filter (fun r => decide (r.deadline ≠ 0))).foldl
        (fun m r => min m ((r.deadline * 1000 - s.spanPs recs r) / 1000)) 0xFFFFFFFF)

/-- Address and records of the shadowed admission table. -/
def State.admAfter (s : State) : Nat × Nat :=
  (s.afterPair Reg.tally.ADM_TABLE_LO Reg.tally.ADM_TABLE_HI, s.afterFld Reg.tally.ADM_CTRL 10 0)

/-- Admission of the shadowed table (R220): the state after the table is read, and the answer. A COUNT above 1,024 names no table. -/
def State.judgeAdm (s : State) : State × AdmOut :=
  let n := s.admAfter.2
  if 1024 < n then (s, .refused Cause.FORMAT false none none)
  else
    let r := s.readTable Master.none s.admAfter.1 128 n
    (r.1, match r.2 with
      | some ps => s.judgeRecs n ps
      | none => .refused Cause.MEM_UNCORRECTABLE false none none)

/-- Does the transaction carry an admission (R220)? -/
def State.carriesAdm (s : State) : Bool :=
  s.shadowed Reg.tally.ADM_CTRL && decide (s.afterFld Reg.tally.ADM_CTRL 10 0 ≠ 0)

/-- The tables that the commit checks read: master, address, bytes. -/
def State.tableReads (s : State) : List (Nat × Nat × Nat) :=
  (if s.newColls then [(Master.none, s.collAfter.1, 64 * s.collAfter.2)] else [])
    ++ ((List.range 16).filter s.newKernels).map (fun k => (Master.mill k, (s.kernelAfter k).1, 64 * (s.kernelAfter k).2))
    ++ (if s.carriesAdm && decide (s.admAfter.2 ≤ 1024) then [(Master.none, s.admAfter.1, 128 * s.admAfter.2)] else [])

/-! ## The apply (R474) -/

/-- A kernel table applied between steps is awaited, or the unit stands idle without one (R253). -/
def State.awaitTable (s : State) (k : Nat) : State :=
  let n := s.fld (Reg.mkv.MK_CTRL k) 10 0
  s.modStack k (fun x =>
    if x.vu = .idle ∧ n ≠ 0 ∧ s.fld (Reg.mkv.VERDICT k) 1 0 = 0 then { x with vu := .awaiting }
    else if x.vu = .awaiting ∧ n = 0 then { x with vu := .idle }
    else x)

/-- One shadow applies: its RWS bits, LAST_TX of its page, and what the block makes of it. -/
def State.applyShadow (s : State) (x : Shadow) : State :=
  let a := x.addr
  let v := mergeRws a (s.reg a) x.val
  let pg := pageOf a
  let s := (s.setReg a v).setFld (pg.base + Reg.header.TALLY) 31 16 s.tally.txId.toNat
  match pg with
  | .barn b =>
    if a = Reg.barn.BANK_SWAP b then s.modBarn b (fun y => { y with swapPending := bit v.toNat 0 }) else s
  | .flume f => s.modFlume f (fun y => { y with bucket := 10000 * s.fld (Reg.flume.HG_BURST f) 23 0 })
  | .gauge => if a = Reg.gauge.POL_PCAP then s.setFld a 11 0 (min 2400 (v.field 11 0)) else s
  | .mkv k =>
    if a = Reg.mkv.MK_CTRL k then
      let s := if bit v.toNat 11 then s.setFld (Reg.mkv.GEN_STATUS k) 0 0 0 else s
      s.awaitTable k
    else s
  | .spring =>
    let i := (a - Reg.spring.SEED0) / 4
    if a = Reg.spring.SEED0 then
      let inj := s.regBit (Reg.spring.page + Reg.header.ERR_INJECT) 0
      (s.setFld (Reg.spring.page + Reg.header.ERR_INJECT) 0 0 0).seedStored i inj
    else if a = Reg.spring.STEP then
      { s.seedStored i false with tally := { s.tally with stepCommitted := s.tally.stepHeld } }
    else s.seedStored i false
  | .global =>
    if a = Reg.global.LSD_MEAN ∨ a = Reg.global.LSD_VAR ∨ a = Reg.global.LSD_COUNT then { s with lsdPending := none }
    else if a = Reg.global.COLL_TABLE_LO ∨ a = Reg.global.COLL_TABLE_HI ∨ a = Reg.global.COLL_CTRL then
      { s with coll := [], tally := { s.tally with colls := s.tally.nextColls } }
    else s
  | _ => s

/-- A barn that stands IDLE swaps at the apply (R191). -/
def State.idleSwaps (s : State) : State := (List.range 8).foldl (fun s b => s.idleSwap b) s

/-- Is some stack throttled, or at T3? -/
def State.stackHot (s : State) : Bool :=
  (List.range 16).any (fun k => decide (2 ≤ s.fld (Reg.ctl.MEM_STATUS k) 1 0) || s.regBit (Reg.ctl.MEM_STATUS k) 4)

/-- Protection that paces now puts the admission at risk: power limits while it is live (R223), a hold, the thermal means and Q_fw while a
deadline is (R370, R376). -/
def State.paceRisk (s : State) : State :=
  let s := if s.gauge.qPower < 256 then s.atRisk 4 else s
  if !s.deadlineLive then s
  else
    let s := if s.inHold then s.atRisk 2 else s
    let s := if s.stackHot || decide (s.gauge.qThermal < 256) then s.atRisk 1 else s
    if s.gauge.qFw < 256 then s.atRisk 4 else s

/-- The admission of the transaction takes effect (R210, R220, R222). -/
def State.applyAdm (s : State) (recs : List AdmRec) (margin : Nat) : State :=
  let t := s.tally
  let epoch := s.fld Reg.global.AVAIL_EPOCH 15 0
  let spans := Vector.ofFn (fun (b : Fin 8) =>
    let x := t.spans[b.val]?.getD Span.reset
    if !recs.any (fun r => decide (r.barn = b.val)) then Span.reset
    else { (if t.live then x else Span.reset) with fromNew := true })
  let s := { s with tally := { t with live := true, recs := recs, spans := spans, nextRecs := [],
                                      cadence := s.regBit Reg.tally.ADM_CTRL 11,
                                      cadPeriod := s.fld Reg.tally.CAD_PERIOD 23 0, cadElapsed := 0 } }
  let s := s.setReg Reg.tally.ADM_STATUS 1
  let s := (s.setReg Reg.tally.ADM_RISK 0).setReg Reg.tally.ADM_MARGIN (BitVec.ofNat 32 margin)
  let s := s.setReg Reg.tally.ADM_EPOCH (BitVec.ofNat 32 (epoch + 2 ^ 16 * t.txId.toNat))
  let s := s.setReg Reg.tally.CAD_SLIP 0
  let pages := (List.range 32).map Page.flume ++ (List.range 24).map Page.port ++ (List.range 16).map Page.mkv
  let s := pages.foldl (fun s pg => s.setFld (pg.base + Reg.header.EPOCH) 15 0 epoch) s
  let s := (List.range 8).foldl (fun s b => s.idleTake b) s
  s.paceRisk.endIfDone

/-- A collective table that applies sets the REDUCE shares of every port (R304); one that applies without a step boundary (R473)
too. -/
def State.tableShares (s : State) (table : Bool) : State :=
  if table then (List.range 24).foldl (fun s p => s.setCredits p false) s else s

/-- Ports whose removal waited leave service where the applied table holds no record on them any more (R213), after the slice that tests
one (R409). -/
def State.dropFreePorts (s : State) : State :=
  (List.range 24).foldl (fun s p =>
    let x := s.port p
    if !x.offline || x.offApplied || !(s.portJobs p).isEmpty then s
    else if s.sliceHoldsPort p then s.holdAct (.remove 3 p)
    else s.modPort p (fun x => { x with offApplied := true })) s

/-- The epoch check of the IDLE Flumes whose shadows have applied (R281). -/
def State.idleEpochs (s : State) (l : List Nat) : State :=
  l.foldl (fun s f => if s.tally.live && s.epochDiffers (.flume f) then s.epochStale (.flume f) (Master.flume f) else s) s

/-- Every shadow applies in one tick (R474). -/
def State.applyAll (s : State) : State :=
  let adm := s.carriesAdm
  let table := s.newColls
  let idle := (List.range 32).filter (fun f => s.touchesFlume f && decide ((s.flume f).state = .idle))
  let s := s.keepWaits
  let t := s.tally
  let s := (t.shadows.foldl (fun s x => s.applyShadow x) s).tableShares table
  let s := (if table then s.dropFreePorts else s).idleSwaps
  let s := (if adm then s.applyAdm t.nextRecs t.nextMargin else s).idleEpochs idle
  let s := { s with
    tally := { s.tally with state := .idle, owner := Master.none, shadows := [], result := 1, applied := satInc 16 t.applied,
                            nextRecs := [] }
    flumes := s.flumes.map (fun f => { f with boundaryHeld := false }) }
  s

/-- Sub-cause conditions that hold now for barn `b` (R224): the highest. -/
def State.subNow (s : State) (b : Nat) : Nat :=
  let slow := (List.range 24).any (fun p => ((s.port p).slowTx || (s.port p).slowRx)
    && (s.portJobs p).any (fun j => decide (j = s.barnJob b false)))
  if slow then 5
  else if (s.barn b).replaying ∨ (s.barn b).pendingRestart then 4
  else if s.gauge.qPower < 256 ∨ (s.gauge.qFw < 256 ∧ s.deadlineLive) then 3
  else if s.inHold then 2
  else if s.stackHot || decide (s.gauge.qThermal < 256) then 1
  else 0

/-- Every running span takes note of what holds now. -/
def State.noteSubs (s : State) : State := (List.range 8).foldl (fun s b => s.spanSub b (s.subNow b)) s

end Sys2Proof.Machine
end

