-- ==== Sys2Proof/Machine/Tally.lean ====
section
/-! DEFINITION. The Tally's commands: the transaction (R469 to R477), deadline misses (R224), cadence ticks (R226, R227), units
taken off line (R212, R213, R235). -/

namespace Sys2Proof.Machine

/-! ## The transaction -/

/-- BEGIN (R470): only an IDLE Tally opens. -/
def State.beginBy (s : State) (w : Writer) : State :=
  if s.tally.state = .idle then
    { s with tally := { s.tally with state := .opened, owner := w.id, overflow := false, shadows := [], nShadows := 0,
                                     txId := if s.tally.txId = 0xFFFF then 1 else s.tally.txId + 1 } }
  else s

/-- BEGIN in TX_CTRL. -/
def execTxBegin (w : Writer) (s : State) : Out :=
  .next (s.put w Reg.tally.TX_CTRL (fun s => s.beginBy w))

/-- ROLLBACK (R469). -/
def State.rollbackBy (s : State) (w : Writer) : State :=
  if s.tally.state = .opened then
    if s.tally.owner = w.id then
      { s with tally := { s.tally with state := .idle, owner := Master.none, shadows := [], result := 4 } }
    else s.refuse .tally w Cause.TALLY_CONFLICT
  else s

/-- ROLLBACK in TX_CTRL. -/
def execRollback (w : Writer) (s : State) : Out :=
  .next (s.put w Reg.tally.TX_CTRL (fun s => s.rollbackBy w))

/-- Ticks that cover `ms` milliseconds. -/
def ticksOfMs (ms : Nat) : Nat := (ms * 10000000 + 63) / 64

/-- The admission's answer at a commit (R220). -/
def State.commitAdm (s : State) : State :=
  let q := s.judgeAdm
  let s := q.1
  match q.2 with
  | .refused cause fr rec margin =>
    let m := s.tally.owner
    let s := (s.refuseCommit cause).showRefusal rec margin
    if fr then s.freeze m cause else s
  | .admitted recs margin => { s with tally := { s.tally with nextRecs := recs, nextMargin := margin } }

/-- The commit checks in their order (R472); a commit that passes them waits for its safe points. A table that cannot be read refuses
the commit with MEM_UNCORRECTABLE (assumption 77). -/
def State.commitChecks (s : State) : State :=
  if s.tally.shadows.any (fun x => !x.good) then s.refuseCommit Cause.MEM_UNCORRECTABLE true
  else if s.tally.overflow then s.refuseCommit Cause.FORMAT
  else
    let q := s.pageChecks
    match q.2 with
    | some c => q.1.refuseCommit c
    | none => if q.1.carriesAdm then q.1.commitAdm else q.1

/-- The checks run once no table that they read stands in memory that waits (R268), each with a tag for its master (R286); until then
they are due, and TALLY_TIMEOUT runs. Shadows that fail before any table is read need none. -/
def State.dueChecks (s : State) : State :=
  let l := if s.tally.overflow || s.tally.shadows.any (fun x => !x.good) then [] else s.tableReads
  let units := l.filter (fun x => decide (x.1 ≠ Master.none))
  if s.tally.state ≠ .committing ∨ !s.tally.checksDue ∨ l.any (fun x => s.memWaits x.2.1 x.2.2) then s
  else if units.all (fun x => s.tagsReady x.1 (memPools x.2.1 x.2.2)) then
    let s := units.foldl (fun s x => s.useTags x.1 (memPools x.2.1 x.2.2)) s
    ({ s with tally := { s.tally with checksDue := false } } : State).commitChecks
  else units.foldl (fun s x => s.joinPools x.1 (memPools x.2.1 x.2.2)) s

/-- COMMIT (R469). -/
def State.commitBy (s : State) (w : Writer) : State :=
  if s.tally.state = .opened then
    if s.tally.owner = w.id then
      ({ s with tally := { s.tally with state := .committing, elapsed := 0, nextRecs := [], nextMargin := 0, checksDue := true,
                                        timeoutTicks := ticksOfMs (s.fld Reg.tally.TALLY_TIMEOUT 15 0),
                                        commitEpoch := BitVec.ofNat 16 (s.fld Reg.global.AVAIL_EPOCH 15 0) } } : State).dueChecks
    else s.refuse .tally w Cause.TALLY_CONFLICT
  else s

/-- COMMIT in TX_CTRL. -/
def execCommit (w : Writer) (s : State) : Out :=
  .next (s.put w Reg.tally.TX_CTRL (fun s => s.commitBy w))

/-- A write of TX_CTRL (R477): no effect with more than one bit set. -/
def State.txCtrl (s : State) (w : Writer) (v : Word) : State :=
  match v.field 2 0 with
  | 1 => s.beginBy w
  | 2 => s.commitBy w
  | 4 => s.rollbackBy w
  | _ => s

/-- A write check that refuses the write only (R369, R386, R471): its cause. -/
def State.rwsRefusal (s : State) (w : Writer) (a : Nat) (v : Word) : Option Nat :=
  if a = Reg.gauge.POL_VMAX then (if v.field 9 0 < 680 ∨ 900 < v.field 9 0 then some Cause.FORMAT else none)
  else if a = Reg.gauge.POL_BEAT then
    (if s.deadlineLive ∧ v.field 11 0 ≠ 0 ∧ s.module.floorPs < v.field 11 0 then some Cause.POLICY_BELOW_FLOOR else none)
  else if a = Reg.gauge.GOV_MODE then
    (if s.deadlineLive ∧ bit v.toNat 0 ∧ w ≠ .fp 3 then some Cause.POLICY_BELOW_FLOOR else none)
  else none

/-- The owner's RWS write sets its shadow (R471). ERR_INJECT [0] of the Tally page stores it with bad parity, once (R406). -/
def State.setShadow (s : State) (w : Writer) (a : Nat) (v : Word) : State :=
  let t := s.tally
  if !s.shadowed a && decide (4096 ≤ t.nShadows) then
    ({ s with tally := { t with overflow := true } } : State).refuseNoFreeze (pageOf a) w Cause.FORMAT
  else
    let inj := Reg.tally.page + Reg.header.ERR_INJECT
    let bad := s.regBit inj 0
    let x : Shadow := ⟨a, v, !bad⟩
    let s := { s with tally := { t with
      shadows := if s.shadowed a then t.shadows.map (fun y => if y.addr = a then x else y) else t.shadows ++ [x],
      nShadows := if s.shadowed a then t.nShadows else t.nShadows + 1 } }
    if bad then s.setFld inj 0 0 0 else s

/-- An RWS write (R469, R471). -/
def State.rwsBy (s : State) (w : Writer) (a : Nat) (v : Word) : State :=
  if s.tally.state = .opened ∧ s.tally.owner = w.id then
    match s.rwsRefusal w a v with
    | some c => s.refuseNoFreeze (pageOf a) w c
    | none => s.setShadow w a v
  else s.refuse (pageOf a) w Cause.TALLY_CONFLICT

/-- Is `a` a register of an absent unit's page (R467)? -/
def State.absentPage (s : State) (a : Nat) : Bool :=
  match pageOf a with
  | .engine e => !s.present e
  | _ => false

/-- A write to an absent unit's page (R467, R482). -/
def State.absentWrite (s : State) (w : Writer) (a : Nat) : State :=
  (s.reportAt .global 121 { cause := Cause.UNIT_ABSENT, cls := Cls.contained, master := w.id, detail := a }).freeze w.id
    Cause.UNIT_ABSENT

/-- RWS_WRITE: a register without an RWS field is none of this command's. -/
def execRwsWrite (w : Writer) (a : BitVec 26) (v : Word) (s : State) : Out :=
  .next (
    let a := a.toNat
    if rwsMask a = 0 then s
    else s.put w a (fun s => if s.absentPage a then s.absentWrite w a else s.rwsBy w a v))

/-- Have the checks run, and does every touched block stand at its safe point? -/
def State.allSafe (s : State) : Bool :=
  !s.tally.checksDue && decide (s.txWaitBarns = 0) && !s.txWaitStep && decide (s.txWaitFlumes = 0)

/-- TALLY_APPLY (R469, R474). -/
def execTallyApply (s : State) : Out :=
  .next (if s.tally.state = .committing ∧ s.allSafe then s.applyAll else s)

/-- TALLY_TIMEOUT (R469): no Gleaner event. -/
def execTallyTimeout (s : State) : Out :=
  .next (if s.tally.state = .committing ∧ s.tally.timeoutTicks ≤ s.tally.elapsed then s.failCommit 3 0 else s)

/-! ## Spans -/

/-- Has the span of barn `b` passed its deadline, not yet reported (R224)? -/
def State.missNow (s : State) (b : Nat) : Bool :=
  match s.curRec b with
  | some r => (s.span b).released && !(s.span b).missed && decide (r.deadline ≠ 0)
      && decide (r.deadline * 10 < (s.span b).timer * 64)
  | none => false

/-- The miss is recorded and reported (R224). -/
def State.miss (s : State) (b : Nat) : State :=
  let s := s.spanSub b (s.subNow b)
  let x := s.span b
  let s := s.setSpan b { x with missed := true }
  let a := Reg.tally.ADM_MISS
  let s := ((s.incFld a 15 0).setFld a 19 16 x.sub).setFld a 29 20 x.recIx
  s.report .tally { cause := Cause.DEADLINE_MISS, cls := Cls.corrected, detail := x.recIx }

/-- DEADLINE_MISS (R224). -/
def execDeadlineMiss (b : BarnId) (s : State) : Out := .next (if s.missNow b then s.miss b else s)

/-- A released cadence span of the barn has not ended (R227). -/
def State.cadenceOpen (s : State) (b : Nat) : Bool :=
  match s.curRec b with
  | some r => decide (r.rel = 1) && (s.span b).released
  | none => false

/-- CADENCE_TICK (R226, R227). -/
def execCadenceTick (s : State) : Out :=
  .next (
    let period := 10000 * s.tally.cadPeriod
    if s.tally.live ∧ s.tally.cadence ∧ period ≠ 0 ∧ period ≤ s.tally.cadElapsed then
      let slip := (List.range 8).any s.cadenceOpen
      let s := { s with tally := { s.tally with cadElapsed := s.tally.cadElapsed - period } }
      let s := (List.range 8).foldl (fun s b => s.releaseSpan b 1) s
      if slip then s.incFld Reg.tally.CAD_SLIP 15 0 else s
    else s)

/-! ## Units taken off line (R212, R213) -/

/-- Does a slice put off a removal that waits for the step boundary (R409)? -/
def State.stepSlice (s : State) : Bool :=
  (s.memStacks.toList.zipIdx).any (fun x => (x.1.pondOffline && !x.1.pondOffApplied && s.sliceInUnit 1 x.2)
    || (x.1.lakeOffline && !x.1.lakeOffApplied && s.sliceInUnit 2 x.2))
    || (s.ports.toList.zipIdx).any (fun x => x.1.offline && !x.1.offApplied && s.sliceInUnit 3 x.2)

/-- Channels and ports whose removal waits for a step boundary. -/
def State.applyStepOffline (s : State) : State :=
  { s with
    memStacks := s.memStacks.map (fun x =>
      { x with
        pondOffApplied := x.pondOffApplied || x.pondOffline
        lakeOffApplied := x.lakeOffApplied || x.lakeOffline })
    ports := s.ports.map (fun x => { x with offApplied := x.offApplied || x.offline }) }

/-- Does UNIT name a unit of the type that exists? -/
def State.unitExists (s : State) (ty u : Nat) : Bool :=
  match ty with
  | 0 => decide (u < 64) && s.present u
  | 1 | 2 => decide (u < 16)
  | 3 => decide (u < 24)
  | 4 => decide (u < 32)
  | 5 => decide (u < 8)
  | _ => false

/-- STATUS.OFFLINE of the unit reads 1 from the write (R213). -/
def State.markOffline (s : State) (ty u : Nat) : State :=
  match ty with
  | 0 => s.modEngine u (fun x => { x with offline := true })
  | 1 => s.modStack u (fun x => { x with pondOffline := true })
  | 2 => s.modStack u (fun x => { x with lakeOffline := true })
  | 3 => s.modPort u (fun x => { x with offline := true })
  | 4 => s.modFlume u (fun x => { x with offline := true })
  | _ => s.modBarn u (fun x => { x with offline := true })

/-- May the unit be removed at once (R213)? -/
def State.removeNow (s : State) (ty u : Nat) : Bool :=
  match ty with
  | 0 => decide ((s.barn (u / 8)).phase = .idle)
  | 1 | 2 => !s.tally.live
  | 3 => (s.portJobs u).isEmpty
  | 4 => decide ((s.flume u).state = .idle) || decide ((s.flume u).state = .aborted)
  | _ => decide ((s.barn u).phase = .idle)

/-- The removal of a marked unit. -/
def State.removeUnit (s : State) (ty u : Nat) : State :=
  match ty with
  | 0 => s.applyBarnOffline (u / 8)
  | 1 => s.modStack u (fun x => { x with pondOffApplied := x.pondOffApplied || x.pondOffline })
  | 2 => s.modStack u (fun x => { x with lakeOffApplied := x.lakeOffApplied || x.lakeOffline })
  | 3 => s.modPort u (fun x => { x with offApplied := x.offApplied || x.offline })
  | 4 => s.flumeOffNow u
  | _ => s.applyBarnOffline u

/-- A marked unit leaves service at once where the table says so, after the slice that tests it (R213, R409); else at its boundary. -/
def State.removeOrWait (s : State) (ty u : Nat) : State :=
  if !s.removeNow ty u then s
  else if s.sliceInUnit ty u then s.holdAct (.remove ty u)
  else s.removeUnit ty u

/-- UNIT_OFFLINE taken from a master with the right: availability follows management, with a disagreement where the data path may
still issue work to the unit (R235; assumption 38), and the epoch advances. A TYPE or UNIT that names no unit has no effect. -/
def State.unitOff (s : State) (v : Word) : State :=
  let ty := v.field 11 8
  let u := v.field 7 0
  if bit v.toNat 31 ∧ s.unitExists ty u then
    let busy := s.tally.live || !s.removeNow ty u
    let s := (s.markOffline ty u).removeOrWait ty u
    let s := if busy then s.report .tally { cause := Cause.STATE_DISAGREE, cls := Cls.corrected } else s
    s.advanceEpoch
  else s

/-- A write of UNIT_OFFLINE (R212). -/
def State.unitOfflineBy (s : State) (w : Writer) (v : Word) : State :=
  if w.isIn [.mgmt, .fp 0] then s.unitOff v else s.refuse .global w Cause.STATE_DISAGREE

/-- UNIT_OFFLINE. -/
def execUnitOffline (w : Writer) (v : Word) (s : State) : Out :=
  .next (s.put w Reg.global.UNIT_OFFLINE (fun s => s.unitOfflineBy w v))

end Sys2Proof.Machine
end

