-- ==== Sys2Proof/WellFormed.lean ====
section
/-! DEFINITION. The lengths a command's lists must have. A command that breaks one is no command of this hardware: the
meanings that carry lists refuse it by name (`Refusal.illFormed`). -/

namespace Sys2Proof

/-- A flit body is 640 bytes (R300). -/
def Flit.wellFormed (f : Flit) : Bool := decide (f.body.length = 640)

/-- One reading per sensor of R363. -/
def Readings.wellFormed (r : Readings) : Bool :=
  decide (r.pace.length = 64) && decide (r.vcore.length = 16) && decide (r.tj.length = 48) && decide (r.stack.length = 272)

/-- One enable per byte, and at least one byte (R442). -/
def MemAccess.wellFormed : MemAccess → Bool
  | .read _ n => decide (0 < n)
  | .write _ d en => decide (0 < d.length) && decide (en.length = d.length)

/-- A whole line with an enable per byte (R240). -/
def LineAccess.wellFormed : LineAccess → Bool
  | .read => true
  | .write d en => decide (d.length = 64) && decide (en.length = 64)

/-- Payload bytes of a tunnelled request: 4-byte words, and a length the packet's LEN field holds (R345). -/
def TunnelOp.wellFormed : TunnelOp → Bool
  | .regWrite _ d => decide (d.length = 4) || decide (d.length = 8)
  | .regRead _ n => decide (n = 1) || decide (n = 2)
  | .memWrite _ d => decide (0 < d.length) && decide (d.length % 4 = 0) && decide (d.length ≤ 4096)
  | .memRead _ n => decide (0 < n) && decide (n ≤ 1024)

/-- A Granary window write has at least one byte (R188). -/
def granaryDataOk (d : List Byte) : Bool := decide (0 < d.length)

/-- The well-formed commands. -/
def Instr.wellFormed : Instr → Bool
  | .flitReceive _ f _ => f.wellFormed
  | .gaugeSample r => r.wellFormed
  | .memoryWindowAccess a _ => a.wellFormed
  | .memoryLineAccess _ _ a _ _ => a.wellFormed
  | .tunnelRequest ⟨op, _⟩ => op.wellFormed
  | .granaryWindowWrite _ _ ⟨d, _⟩ => granaryDataOk d
  | _ => true

end Sys2Proof
end

