-- ==== Sys2Proof/Machine/Mill.lean ====
section
/-! DEFINITION. The Mills and the memory controllers as commands: adder operations (R246 to R250), the vector unit's table and
kernels (R251 to R258), line accesses (R240, R259 to R262), spare rows (R263, R264), the repair page (R269, R270). -/

namespace Sys2Proof.Machine

/-! ## What an uncorrectable access does to its master (R261, R250, R258) -/

/-- A vector unit stops part way: TORN where a record has written in place (R258). -/
def State.mkStop (s : State) (k : Nat) : State :=
  let s := if (s.stack k).mkWrote then s.setFld (Reg.mkv.GEN_STATUS k) 2 2 1 else s
  (s.leavePools (Master.mill k)).modStack k (fun x => { x with mkStopped := true })

/-- The consequence of an uncorrectable access by kind of master; `inj`: injection produced it (R405). -/
def State.masterUE (s : State) (m : Nat) (inj : Bool := false) : State :=
  if 8 ≤ m ∧ m < 16 then s.barnFault (m - 8) Cause.MEM_UNCORRECTABLE
  else if 0x10 ≤ m ∧ m < 0x30 then
    (if (s.flume (m - 0x10)).cur.isSome ∧ (s.flume (m - 0x10)).state ≠ .aborted then
      s.flumeAbort (m - 0x10) { cause := Cause.MEM_UNCORRECTABLE, inj := inj }
     else s)
  else if 0x30 ≤ m ∧ m < 0x40 then (s.mkStop (m - 0x30)).freeze m Cause.MEM_UNCORRECTABLE
  else s

/-! ## Adder operations -/

/-- One Mill operation of master `m` on an aligned element (R246, R247). The codes of no master (R402) make none. -/
def State.millOp (s : State) (m op ty a : Nat) (x : BitVec 64) : State :=
  let w := millBytes ty
  if masterPage m = .unassigned ∨ a % w ≠ 0 ∨ s.memWaits a w ∨ s.sliceHoldsMill (addrStack a) ∨ !s.up then s
  else s.withTags m a w (fun s =>
    let r := s.millRun m op ty a (leBytes w x.toNat)
    if r.2 then r.1 else r.1.masterUE m (s.accessInj m a w true))

/-- Type code of R246. -/
def MillType.code : MillType → Nat
  | .fp32 => 0 | .bf16 => 1 | .int32 => 2 | .int64 => 3

/-- MILL_ADD (R247). -/
def execMillAdd (m : BitVec 6) (ty : MillType) (a : BitVec 42) (x : BitVec 64) (s : State) : Out :=
  .next (s.millOp m.toNat 0 (MillType.code ty) a.toNat x)
/-- MILL_MIN (R247). -/
def execMillMin (m : BitVec 6) (ty : MillType) (a : BitVec 42) (x : BitVec 64) (s : State) : Out :=
  .next (s.millOp m.toNat 1 (MillType.code ty) a.toNat x)
/-- MILL_MAX (R247). -/
def execMillMax (m : BitVec 6) (ty : MillType) (a : BitVec 42) (x : BitVec 64) (s : State) : Out :=
  .next (s.millOp m.toNat 2 (MillType.code ty) a.toNat x)
/-- MILL_STORE (R247). -/
def execMillStore (m : BitVec 6) (ty : MillType) (a : BitVec 42) (x : BitVec 64) (s : State) : Out :=
  .next (s.millOp m.toNat 3 (MillType.code ty) a.toNat x)

/-! ## The verdict gate (R253, R254, R256) -/

/-- Applied COUNT of a vector unit's table. -/
def State.mkCount (s : State) (k : Nat) : Nat := s.fld (Reg.mkv.MK_CTRL k) 10 0
def State.mkSingle (s : State) (k : Nat) : Bool := s.regBit (Reg.mkv.MK_CTRL k) 11
def State.mkCkpt (s : State) (k : Nat) : Bool := s.regBit (Reg.mkv.MK_CTRL k) 12
/-- FROZEN of GEN_STATUS. -/
def State.genFrozen (s : State) (k : Nat) : Bool := s.regBit (Reg.mkv.GEN_STATUS k) 1
/-- Is a stack in self-refresh? -/
def State.selfRefresh (s : State) (k : Nat) : Bool := s.regBit (Reg.ctl.MEM_STATUS k) 4

/-- Does the unit stand at its step safe point, as the boundary asks (R253)? A table of no record asks nothing. -/
def State.mkSafe (s : State) (k : Nat) : Bool := decide (s.mkCount k = 0) || (s.stack k).mkAtSafe

/-- The unit awaits the verdict of a step, or has no table. -/
def State.mkAwait (s : State) (k : Nat) : State :=
  s.modStack k (fun x => { x with
    vu := if s.mkCount k = 0 then .idle else .awaiting, mkRec := 0, mkAtSafe := false, mkComplete := false,
    mkSkipped := false, mkStopped := false, mkWrote := false, mkAlt := false, nfReported := false })

/-- The table runs from its first record; at T3 it pauses at once. -/
def State.mkRun (s : State) (k : Nat) : State :=
  let t3 := s.selfRefresh k
  s.modStack k (fun x => { x with vu := if t3 then .pausedT3 else .running })

/-- The table starts (R256): a checkpoint step freezes single mode's generation first, and misses where a generation is
frozen in double mode. -/
def State.mkStart (s : State) (k : Nat) : State :=
  let ckpt := s.mkCkpt k
  if s.mkSingle k then
    let s := if ckpt then s.setFld (Reg.mkv.GEN_STATUS k) 1 1 1 else s
    if s.genFrozen k then s.modStack k (fun x => { x with vu := .awaitRelease, mkAlt := false }) else s.mkRun k
  else
    let missed := ckpt && s.genFrozen k
    (s.modStack k (fun x => { x with mkAlt := ckpt && !missed })).mkRun k

/-- The table is skipped (R254, R256). -/
def State.mkSkip (s : State) (k : Nat) : State :=
  let s := s.incFld (Reg.mkv.MK_SKIPS k) 15 0
  let s := s.modStack k (fun x => { x with vu := .idle, mkAtSafe := true, mkSkipped := true })
  s.report (.mkv k) { cause := Cause.NONFINITE, cls := Cls.corrected, master := Master.mill k }

/-- VERDICT is written in a Mill (R253), and the gate of R254 acts. -/
def State.mkVerdict (s : State) (k : Nat) (fin : Bool) : State :=
  let s := s.setFld (Reg.mkv.VERDICT k) 1 0 (if fin then 1 else 2)
  if (s.stack k).vu ≠ .awaiting ∨ s.frozen (Master.mill k) then s
  else if fin then s.mkStart k
  else if s.regBit (Reg.mkv.MK_CTRL k) 13 then
    (s.modStack k (fun x => { x with vu := .halted })).report (.mkv k)
      { cause := Cause.NONFINITE, cls := Cls.contained, master := Master.mill k }
  else s.mkSkip k

/-- The verdict in every Mill. -/
def State.millsVerdict (s : State) (fin : Bool) : State := (List.range 16).foldl (fun s k => s.mkVerdict k fin) s

/-- A write of VERDICT_CTRL (R254): acts only in STATE 3. -/
def State.verdictCtrl (s : State) (k v : Nat) : State :=
  if (s.stack k).vu ≠ .halted then s
  else if v = 1 then s.mkStart k else if v = 2 then s.mkSkip k else s

/-- VERDICT_CTRL = 1. -/
def execVerdictCtrlRun (w : Writer) (k : StackId) (s : State) : Out :=
  .next (s.put w (Reg.mkv.VERDICT_CTRL k) (fun s => s.verdictCtrl k 1))
/-- VERDICT_CTRL = 2. -/
def execVerdictCtrlSkip (w : Writer) (k : StackId) (s : State) : Out :=
  .next (s.put w (Reg.mkv.VERDICT_CTRL k) (fun s => s.verdictCtrl k 2))

/-- RELEASE (R256). -/
def State.genRelease (s : State) (k : Nat) : State :=
  let s := s.setFld (Reg.mkv.GEN_STATUS k) 1 1 0
  if (s.stack k).vu = .awaitRelease then s.mkRun k else s

/-- RELEASE in GEN_RELEASE. -/
def execRelease (w : Writer) (k : StackId) (s : State) : Out :=
  .next (s.put w (Reg.mkv.GEN_RELEASE k) (fun s => s.genRelease k))

/-! ## Kernels (R255) -/

/-- The scalars of the vector unit page. -/
structure Scalars where
  lr : Word
  beta1 : Word
  beta2 : Word
  eps : Word
  wd : Word
  bc1 : Word
  bc2 : Word
  gscale : Word

def State.scalars (s : State) (k : Nat) : Scalars :=
  ⟨s.reg (Reg.mkv.LR k), s.reg (Reg.mkv.BETA1 k), s.reg (Reg.mkv.BETA2 k), s.reg (Reg.mkv.EPS k), s.reg (Reg.mkv.WD k),
   s.reg (Reg.mkv.BC1 k), s.reg (Reg.mkv.BC2 k), s.reg (Reg.mkv.GSCALE k)⟩

/-- The Spring's part of a conversion: seed, layer and step. -/
structure SrKey where
  seed : Quad
  layer : Nat
  step : Nat

/-- sr_bf16(x, n, j). -/
def SrKey.bf16 (q : SrKey) (x : Word) (n j : Nat) : Nat :=
  fmtBF16.encode (.stochastic (springU q.seed 3 0 q.layer j q.step (n / 2 ^ 22) (n % 2 ^ 22) 0)) false (F32.val x)
/-- rne_bf16(x). -/
def rneBf16 (x : Word) : Nat := fmtBF16.encode .nearest false (F32.val x)
/-- A BF16 number as FP32. -/
def bf16Word (w : Nat) : Word := F32.ofVal (fmtBF16.decode w)

/-- What a kernel makes of one parameter: w, m, v and the working weight. -/
structure ParamOut where
  w : Word
  m : Nat
  v : Nat
  out : Nat

/-- Is a stored result not finite? -/
def ParamOut.nonFinite (kind : Nat) (o : ParamOut) : Bool :=
  !F32.isFinite o.w || !(fmtBF16.decode o.m).isFinite || (decide (kind = 2) && !(fmtBF16.decode o.v).isFinite)
    || !(fmtBF16.decode o.out).isFinite

def adamw (c : Scalars) (q : SrKey) (w m v acc : Word) (n : Nat) : ParamOut :=
  let g := F32.mul acc c.gscale
  let m1 := F32.add (F32.mul c.beta1 m) (F32.mul (F32.sub F32.one c.beta1) g)
  let v1 := F32.add (F32.mul c.beta2 v) (F32.mul (F32.sub F32.one c.beta2) (F32.mul g g))
  let d := F32.div (F32.mul m1 c.bc1) (F32.add (F32.sqrt (F32.mul v1 c.bc2)) c.eps)
  let w1 := F32.sub w (F32.mul c.lr (F32.add d (F32.mul c.wd w)))
  ⟨w1, q.bf16 m1 n 0, q.bf16 v1 n 1, rneBf16 w1⟩

def sgdm (c : Scalars) (q : SrKey) (w m acc : Word) (n : Nat) : ParamOut :=
  let g := F32.mul acc c.gscale
  let m1 := F32.add (F32.mul c.beta1 m) g
  let w1 := F32.sub w (F32.mul c.lr (F32.add m1 (F32.mul c.wd w)))
  ⟨w1, q.bf16 m1 n 0, 0, rneBf16 w1⟩

/-- Lake offset of generation `g`. -/
def State.genBase (s : State) (k g : Nat) : Nat :=
  2 ^ 20 * (if g = 0 then s.fld (Reg.mkv.GEN_BASE0 k) 17 0 else s.fld (Reg.mkv.GEN_BASE1 k) 17 0)
/-- LIVE_GEN; single mode reads 0. -/
def State.liveGen (s : State) (k : Nat) : Nat := if s.mkSingle k then 0 else s.fld (Reg.mkv.GEN_STATUS k) 0 0
/-- Generation that a table's kernels write. -/
def State.outGen (s : State) (k : Nat) : Nat := if (s.stack k).mkAlt then 1 - s.liveGen k else s.liveGen k

/-- A read by the vector unit; an uncorrectable line stops the unit and freezes it. -/
def State.mkRead (s : State) (k a n : Nat) : State × Option (List Byte) :=
  let r := s.memRead (Master.mill k) a n
  match r.2 with
  | some d => (r.1, some d)
  | none => (r.1.masterUE (Master.mill k), none)

/-- A write by the vector unit; a refused line stops it. -/
def State.mkWrite (s : State) (k a : Nat) (d : List Byte) : State :=
  let r := s.memWrite (Master.mill k) a d
  if r.2 then r.1 else r.1.masterUE (Master.mill k)

/-- Reads of several arrays, in order. -/
def State.mkReads (s : State) (k : Nat) : List (Nat × Nat) → State × Option (List (List Byte))
  | [] => (s, some [])
  | x :: xs =>
    let r := s.mkRead k x.1 x.2
    match r.2 with
    | none => (r.1, none)
    | some d =>
      let q := State.mkReads r.1 k xs
      (q.1, q.2.map (fun ds => d :: ds))

/-- Writes of several arrays, in order; none after a refused one. -/
def State.mkWrites (s : State) (k : Nat) : List (Nat × List Byte) → State
  | [] => s
  | x :: xs =>
    let s := s.mkWrite k x.1 x.2
    if (s.stack k).mkStopped then s else State.mkWrites s k xs

/-- The first non-finite result of a step is reported (R255). -/
def State.mkNonFinite (s : State) (k : Nat) (nf : Bool) : State :=
  if nf ∧ !(s.stack k).nfReported then
    (s.modStack k (fun x => { x with nfReported := true })).report (.mkv k)
      { cause := Cause.NONFINITE, cls := Cls.corrected, master := Master.mill k }
  else s

/-- Items `i` to `i + n − 1` of a record: parameters, or blocks for COPY. -/
def State.mkGroup (s : State) (k : Nat) (r : KernelRec) (i n : Nat) : State :=
  let src := s.genBase k (s.liveGen k)
  let dst := s.genBase k (s.outGen k)
  let lake (o : Nat) : Nat := lakeAddr k o
  let inPlace (s : State) : State := if (s.stack k).mkAlt then s else s.modStack k (fun x => { x with mkWrote := true })
  let q : SrKey := ⟨s.seed false, r.layer, s.stepNo⟩
  let c := s.scalars k
  let word (d : List Byte) (j : Nat) : Word := wordAt d (4 * j)
  let half (d : List Byte) (j : Nat) : Word := bf16Word (leNat ((d.drop (2 * j)).take 2))
  match r.kind with
  | 0 =>
    let g := s.mkReads k [(lake (src + r.w + 256 * i), 256 * n)]
    match g.2 with
    | some [d] =>
      if s.mkSingle k || s.genFrozen k then g.1
      else g.1.mkWrites k [(lake (s.genBase k (1 - s.liveGen k) + r.w + 256 * i), d)]
    | _ => g.1
  | 3 =>
    let g := s.mkReads k [(lake (src + r.w + 4 * i), 4 * n)]
    match g.2 with
    | some [w] =>
      let os := (List.range n).map (fun j => rneBf16 (word w j))
      (g.1.mkWrites k [(pondAddr k (r.out + 2 * i), os.flatMap (fun o => leBytes 2 o))]).mkNonFinite k
        (os.any (fun o => !(fmtBF16.decode o).isFinite))
    | _ => g.1
  | 1 =>
    let g := s.mkReads k [(lake (src + r.w + 4 * i), 4 * n), (lake (src + r.m + 2 * i), 2 * n), (lake (r.g + 4 * i), 4 * n)]
    match g.2 with
    | some [w, m, a] =>
      let os := (List.range n).map (fun j => sgdm c q (word w j) (half m j) (word a j) (r.elem0 + i + j))
      ((inPlace g.1).mkWrites k [(lake (dst + r.w + 4 * i), os.flatMap (fun o => leBytes 4 o.w.toNat)),
        (lake (dst + r.m + 2 * i), os.flatMap (fun o => leBytes 2 o.m)),
        (pondAddr k (r.out + 2 * i), os.flatMap (fun o => leBytes 2 o.out))]).mkNonFinite k (os.any (ParamOut.nonFinite 1))
    | _ => g.1
  | _ =>
    let g := s.mkReads k [(lake (src + r.w + 4 * i), 4 * n), (lake (src + r.m + 2 * i), 2 * n), (lake (src + r.v + 2 * i), 2 * n),
      (lake (r.g + 4 * i), 4 * n)]
    match g.2 with
    | some [w, m, v, a] =>
      let os := (List.range n).map (fun j => adamw c q (word w j) (half m j) (half v j) (word a j) (r.elem0 + i + j))
      ((inPlace g.1).mkWrites k [(lake (dst + r.w + 4 * i), os.flatMap (fun o => leBytes 4 o.w.toNat)),
        (lake (dst + r.m + 2 * i), os.flatMap (fun o => leBytes 2 o.m)), (lake (dst + r.v + 2 * i), os.flatMap (fun o => leBytes 2 o.v)),
        (pondAddr k (r.out + 2 * i), os.flatMap (fun o => leBytes 2 o.out))]).mkNonFinite k (os.any (ParamOut.nonFinite 2))
    | _ => g.1

/-- The groups of a record from item `i` on, 32 items at a time; none after the unit stopped. -/
def State.mkGroups (s : State) (k : Nat) (r : KernelRec) : Nat → Nat → State
  | 0, _ => s
  | n + 1, i =>
    if r.count ≤ i ∨ (s.stack k).mkStopped then s
    else State.mkGroups (s.mkGroup k r i (min 32 (r.count - i))) k r n (i + 32)

/-- The record after the present one, or the step safe point. -/
def State.mkNext (s : State) (k : Nat) : State :=
  s.modStack k (fun x =>
    if x.mkRec + 1 < s.mkCount k then { x with mkRec := x.mkRec + 1 }
    else { x with vu := .idle, mkAtSafe := true, mkComplete := true })

/-- The record at `a` is read and checked, then its kernel runs where it is of the command's kind. -/
def State.mkRecord (s : State) (k kind a : Nat) : State :=
  let m := Master.mill k
  let g := s.mkRead k a 64
  match g.2 with
  | none => g.1
  | some d =>
    let P := leNat d
    let r := kernelRecOf P
    if !kernelOk P (s.mkSingle k) (s.genBase k 0) (s.genBase k 1) then
      ((g.1.report (.mkv k) { cause := Cause.FORMAT, cls := Cls.contained, master := m }).mkStop k).freeze m Cause.FORMAT
    else if r.kind ≠ kind then s
    else match (if kind = 1 ∨ kind = 2 then s.drawFault false true else none) with
    | some inj => g.1.springFault inj
    | none =>
      let s := g.1.mkGroups k r ((r.count + 31) / 32) 0
      if (s.stack k).mkStopped then s else s.mkNext k

/-- The pools that a kernel of stack `k` draws on besides its table's: those of the stack's two channels. -/
def mkPools (k a : Nat) : List (TagPool × Nat) :=
  mergeNeeds (memPools a 64) [(.pond (Fin.ofNat 16 k), 1), (.lake (Fin.ofNat 16 k), 1)]

/-- The unit runs its record when that is of the command's kind: epoch, tags, record check, then the kernel (R253, R258). -/
def State.mkKernel (s : State) (k kind : Nat) : State :=
  let x := s.stack k
  let m := Master.mill k
  if x.vu ≠ .running ∨ x.mkStopped ∨ s.frozen m ∨ s.selfRefresh k ∨ s.sliceHoldsMill k ∨ !s.up then s
  else
    let a := s.pair (Reg.mkv.MK_TABLE_LO k) (Reg.mkv.MK_TABLE_HI k) + 64 * x.mkRec
    if s.memWaits a 64 then s
    else if s.tally.live ∧ s.epochDiffers (.mkv k) then
      (s.epochStale (.mkv k) m).mkStop k |>.modStack k (fun x => { x with vu := .idle })
    else s.withPools m (mkPools k a) (fun s => s.mkRecord k kind a)

/-- ADAMW (R255). -/
def execAdamw (k : StackId) (s : State) : Out := .next (s.mkKernel k 2)
/-- SGDM (R255). -/
def execSgdm (k : StackId) (s : State) : Out := .next (s.mkKernel k 1)
/-- COPY (R255). -/
def execCopy (k : StackId) (s : State) : Out := .next (s.mkKernel k 0)
/-- CAST (R255). -/
def execCast (k : StackId) (s : State) : Out := .next (s.mkKernel k 3)

/-! ## Line accesses -/

/-- What the code finds beyond what the state forces: a corrected line counts, an uncorrectable one is damaged. -/
def State.upsetLine (s : State) (l : Nat) (u : Upset) : State :=
  match u with
  | .clean => s
  | .corrected _ => if s.lineBad l || s.lineCorrected l then s else s.countCorrected l
  | .uncorrectable => { s with memTag := s.memTag.wr l 3 }

/-- The access is made: past the sluice, a read, or a write of the enabled bytes. -/
def State.lineMake (s : State) (m l : Nat) (acc : LineAccess) (u : Upset) (p : SluiceParity) : State :=
  let q := s.sluiceParity p m
  if q.2 then q.1.masterUE m
  else if q.1.fatal then q.1
  else
    let s := q.1
    match acc with
    | .read =>
      let r := (s.upsetLine l u).memRead m (64 * l) 64
      match r.2 with
      | some _ => r.1
      | none => r.1.masterUE m (s.accessInj m (64 * l) 64 false)
    | .write d en =>
      let whole := en.all (fun b => b)
      let s := if whole then s else s.upsetLine l u
      let r := s.memWriteMasked m (64 * l) d en
      if r.2 then r.1 else r.1.masterUE m (s.accessInj m (64 * l) 64 true)

/-- MEMORY_LINE_ACCESS (R240, R259 to R262, R285, R399): one line, read or written by a master that finds a tag. -/
def State.lineAccess (s : State) (m l : Nat) (acc : LineAccess) (u : Upset) (p : SluiceParity) : State :=
  if masterPage m = .unassigned ∨ s.memWaits (64 * l) 64 ∨ !s.up then s
  else s.withTags m (64 * l) 64 (fun s => s.lineMake m l acc u p)

/-- MEMORY_LINE_ACCESS. -/
def execMemoryLineAccess (m : BitVec 6) (line : BitVec 36) (acc : LineAccess) (u : Upset) (p : SluiceParity) (s : State) : Out :=
  if Sys2Proof.LineAccess.wellFormed acc then .next (s.lineAccess m.toNat line.toNat acc u p) else .refused .illFormed

/-! ## Spare rows -/

/-- Does FP-B run? -/
def State.fpbRuns (s : State) : Bool := decide ((s.fp 0).state = .running) && !s.frozen (Master.fp 0)

/-- May a row that reached the threshold be spared now: a slice of R228 to R231 on its home barn? -/
def State.spareWindow (s : State) (b : Nat) : Bool :=
  !s.windowSlice b &&
    ((decide ((s.barn b).phase = .idle) && !s.tally.live) || (match (s.barn b).fallow with
      | some f => f.openedAt.isSome && decide (sliceBudget 0x9 ≤ f.window)
      | none => false))

/-- The first row of the queue that may be spared now. -/
def State.spareNow (s : State) (k : Nat) : Option (Nat × Bool) :=
  (s.stack k).spareQ.find? (fun e => (e.2 || s.spareWindow (k / 2)) && !s.sliceHoldsLine e.1)

/-- ROW_SPARE (R263): FP-B spares the next row of the stack. -/
def execRowSpare (k : StackId) (s : State) : Out :=
  .next (match s.spareNow k with
    | none => s
    | some e =>
      if !s.fpbRuns ∨ s.selfRefresh k ∨ !s.up then s
      else
        let s := s.modStack k (fun x => { x with spareQ := x.spareQ.filter (fun q => decide (q.1 ≠ e.1)) })
        let s := s.spareRow k e.1
        if e.2 then s else s.closeFallow (k / 2))

/-- A write of GO in REPAIR_CTRL (R269): the row is to be spared at once. -/
def State.repairGo (s : State) (w : Writer) (k : Nat) : State :=
  let a := s.pair (Reg.rep.REPAIR_ADDR_LO k) (Reg.rep.REPAIR_ADDR_HI k)
  if addrStack a ≠ k then s.refuseNoFreeze (.rep k) w Cause.FORMAT
  else s.queueSpare k (a / 64) true

/-- May the master write the repair page (R270)? -/
def repairWriter (w : Writer) : Bool := w.isIn [.mgmt, .fp 0]

/-- REPAIR_CTRL_GO. -/
def execRepairCtrlGo (w : Writer) (k : StackId) (s : State) : Out :=
  .next (s.put w (Reg.rep.REPAIR_CTRL k) (fun s =>
    if repairWriter w then s.repairGo w k else s.refuse (.rep k) w Cause.STATE_DISAGREE))

/-- A write of THERM_CFG (R269). -/
def State.thermWrite (s : State) (w : Writer) (k : Nat) (v : Word) : State :=
  if v.field 22 16 = 0 ∨ 100 < v.field 22 16 then s.refuseNoFreeze (.ctl k) w Cause.FORMAT
  else s.setReg (Reg.ctl.THERM_CFG k) (v &&& 0x7FFFFF)

/-- THERM_CFG. -/
def execThermCfg (w : Writer) (k : StackId) (v : Word) (s : State) : Out :=
  .next (s.put w (Reg.ctl.THERM_CFG k) (fun s => s.thermWrite w k v))

end Sys2Proof.Machine
end

