-- ==== Sys2Proof/Machine/WeirLink.lean ====
section
/-! DEFINITION. The Weir link layer (R297 to R305): training, flits received and sent, acknowledgment and replay, lanes,
credits, the choice of the next packet. -/

namespace Sys2Proof.Machine

/-! ## Training (R299) -/

/-- A link as it comes up: sequence numbers at 0, nothing outstanding, every credit at its share. -/
def Port.trained (x : Port) (lanes : BitVec 4) (now : Nat) : Port :=
  { x with link := .up, lanes := lanes, proto := 1, lineCount := 0, txSeq := 0, replay := [], replaySince := 0, rxExpect := 0,
           nakSent := false, rxBuf := [], rxQ := [], laneFrom := none, lastRx := now, credit := List.replicate 19 0, used := List.replicate 19 0,
           granted := List.replicate 19 0, taken := List.replicate 19 0, txSyms := [], telQ := [],
           txPk := Vector.replicate 4 [], txBuf := [], deficit := Vector.replicate 4 0, held := [] }

/-- May FP-L train a link: it runs, in a start too (R413, R430 step 9)? -/
def State.fplTrains (s : State) : Bool :=
  decide ((s.fp 2).state = .running) && !s.frozen (Master.fp 2) && (s.up || s.starting)

/-- FP-L trains a port that is down: equalisation, then the lower of the two majors offered; a generation 1 module offers and
accepts major 1 only. Retired lanes stay out (R396). -/
def State.train (s : State) (p offer : Nat) (equalised : Bool) (lanes : BitVec 4) : State :=
  let x := s.port p
  let use := lanes &&& ~~~ x.lanesRetired
  if x.link ≠ .down ∨ x.retired ∨ !s.fplTrains ∨ s.fatal then s
  else if !equalised ∨ min offer 1 ≠ 1 ∨ use = 0 then s
  else (s.modPort p (fun x => x.trained use s.time)).setCredits p true

/-- LINK_TRAINING. -/
def execLinkTraining (p : PortId) (offer : Nat) (equalised : Bool) (lanes : BitVec 4) (s : State) : Out :=
  .next (s.train p offer equalised lanes)

/-! ## Flits received (R298 to R303) -/

/-- Whole packets in a packet area, and the bytes of one that goes on in the next flit; a PAD header ends the area (R300). -/
def takePackets : Nat → List Byte → List Packet × List Byte
  | 0, bs => ([], bs)
  | n + 1, bs =>
    match bs with
    | [] => ([], [])
    | b :: _ =>
      if b.toNat % 8 = 7 then ([], [])
      else if bs.length < 16 then ([], bs)
      else
        let h := leNat (bs.take 16)
        let len := bits h 67 57
        if bs.length < 16 + len then ([], bs)
        else
          let r := takePackets n (bs.drop (16 + len))
          (⟨BitVec.ofNat 128 h, (bs.drop 16).take len⟩ :: r.1, r.2)

/-- Largest number of packets one area can end, and one more. -/
abbrev packetsPerFlit : Nat := 40

/-- The phase map a packet is routed by (R349). -/
def State.packetMap (s : State) (h : Hdr) : Nat := if h.cls = 3 then s.fld Reg.global.TUN_CTRL 17 16 else (s.job h.job).map

/-- The output port that a route entry names: none where it says unreachable or names no port (R335). -/
def routePort (b : Nat) : Option Nat := if b < 24 then some b else none

/-- Master `m` looks up the output port toward node `d` in phase map `map` (R335); an entry that cannot be read routes nothing, after the
report of its line (R245, R261). -/
def State.routeBy (s : State) (m map d : Nat) : State × Option Nat :=
  if d = 16383 then (s, none)
  else
    let r := s.memRead m (s.routeAddr map d) 1
    (r.1, r.2.bind (fun bs => routePort (byteAt bs 0).toNat))

/-- Does the entry stand in memory that waits (R268)? -/
def State.routeWaits (s : State) (map d : Nat) : Bool := decide (d ≠ 16383) && s.memWaits (s.routeAddr map d) 1

/-- The phase map of TUNNEL packets (R349). -/
def State.tunMap (s : State) : Nat := s.fld Reg.global.TUN_CTRL 17 16

/-- A CPL leaves on the route to the sender of its request (R345); one that cannot be routed is discarded. The answer: did it leave? -/
def State.cplGo (s : State) (dst tag status : Nat) (data : List Byte) : State × Bool :=
  let r := s.routeBy Master.host s.tunMap dst
  match r.2 with
  | some q => (r.1.queuePacket q (mkPacket 3 4 0 false s.moduleId dst 0 tag (status % 8) data), true)
  | none => (r.1, false)

/-- A CPL for a tunnelled request, in its turn once the route table can be read (R268). -/
def State.sendCpl (s : State) (dst tag status : Nat) (data : List Byte) : State × Bool :=
  if s.routeWaits s.tunMap dst || !s.host.cplHeld.isEmpty then
    ({ s with host := { s.host with cplHeld := s.host.cplHeld ++ [(dst, tag, status, data)] } }, true)
  else s.cplGo dst tag status data

/-- The completions that wait go on, in their order. -/
def State.serveCpl (s : State) : Nat → State
  | 0 => s
  | n + 1 =>
    match s.host.cplHeld with
    | [] => s
    | (dst, tag, status, d) :: rest =>
      if s.routeWaits s.tunMap dst then s
      else State.serveCpl (({ s with host := { s.host with cplHeld := rest } } : State).cplGo dst tag status d).1 n

/-- A packet not addressed to the module (R335, R347): forwarded by its map, or answered with STATUS 1, or discarded. -/
def State.forward (s : State) (p : Nat) (k : Packet) : State :=
  let h := k.fields
  let r := s.routeBy (Master.port p) (s.packetMap h) h.dst
  let s := r.1
  match r.2 with
  | some q => if (s.port q).retired then s.discardPacket p k else (s.freePacket p k).queuePacket q k
  | none =>
    if h.cls = 3 ∧ h.kind < 4 then
      let r := s.sendCpl h.src h.tag 1 []
      if r.2 then r.1.freePacket p k else r.1.discardPacket p k
    else s.discardPacket p k

/-- Does a packet on its way through wait at the port: for the route table (R268), or behind another that does? -/
def State.transitWaits (s : State) (p : Nat) (k : Packet) : Bool :=
  s.routeWaits (s.packetMap k.fields) k.fields.dst || (s.port p).rxQ.any (fun r => match r with
    | .pkt k => !s.forThis k
    | .sym _ => false)

/-- Packets at the head of what the port received that are for others go on once they may. -/
def State.serveTransit (s : State) (p : Nat) : Nat → State
  | 0 => s
  | n + 1 =>
    match (s.port p).rxQ with
    | .pkt k :: rest =>
      if s.forThis k ∨ s.routeWaits (s.packetMap k.fields) k.fields.dst then s
      else
        let s := s.modPort p (fun x => { x with rxQ := rest })
        State.serveTransit (if s.mustStop p k then s.discardPacket p k else s.forward p k) p n
    | _ => s

/-- A packet arrives: counted against its credit, then kept for its own step, discarded, or forwarded. One that follows a
VERDICT or RESUME on the link is judged when that symbol has been taken. -/
def State.packetIn (s : State) (p : Nat) (k : Packet) : State :=
  let h := k.fields
  let s := s.takeCredit p k
  if !s.up ∨ (s.port p).offApplied then s.discardPacket p k
  else if s.forThis k then
    (if s.mustDiscard p k && (neverTaken h || !(s.port p).stepSymWaits) then s.discardPacket p k
     else s.modPort p (fun x => { x with rxQ := x.rxQ ++ [.pkt k] }))
  else if s.mustStop p k then s.discardPacket p k
  else if s.transitWaits p k then s.modPort p (fun x => { x with rxQ := x.rxQ ++ [.pkt k] })
  else s.forward p k

/-- A control symbol slot; an empty slot and the reserved types carry nothing (R305). -/
def State.symIn (s : State) (p : Nat) (v : BitVec 64) : State :=
  if 1 ≤ symType v ∧ symType v ≤ 10 then s.modPort p (fun x => { x with rxQ := x.rxQ ++ [.sym v] }) else s

/-- The two control symbols of a body. -/
def State.symsIn (s : State) (p : Nat) (body : List Byte) : State :=
  (s.symIn p (BitVec.ofNat 64 (leNat ((body.drop 616).take 8)))).symIn p (BitVec.ofNat 64 (leNat ((body.drop 624).take 8)))

/-- Queue a link-layer symbol in place of an older one of its type. -/
def State.linkSym (s : State) (p ty : Nat) (v : BitVec 64) : State :=
  s.modPort p (fun x => { x with txSyms := x.txSyms.filter (fun w => decide (symType w ≠ ty)) ++ [v] })

/-- A failed codeword is charged to its lane (R301), and may retire it (R303). -/
def State.chargeLane (s : State) (p n : Nat) : State :=
  let us := 1000 * s.fld (Reg.port.LANE_WINDOW p) 23 0
  let old := (s.port p).laneFails[n]?.getD []
  let k := (windowed s.time us old).length + 1
  let s := s.modPort p (fun x => { x with laneFails := x.laneFails.setIfInBounds n (old ++ [s.time]) })
  if s.fld (Reg.port.LANE_RETIRE p) 7 0 ≤ k then
    let r := s.retireLanes p ((s.port p).lanes &&& ~~~ (BitVec.ofNat 4 (2 ^ n)))
    if r.2 then r.1.linkSym p Sym.LANE (symLane (r.1.port p).lanes (r.1.port p).rxExpect) else r.1
  else s

/-- A flit that fails (R302): dropped, NAK for the first, its lane charged. -/
def State.flitFailed (s : State) (p n : Nat) : State :=
  let s := if (s.port p).nakSent then s
    else (s.modPort p (fun x => { x with nakSent := true })).linkSym p Sym.NAK (symNak (s.port p).rxExpect)
  (s.noteCrc p).chargeLane p n

/-! ## Flits on the line (R301, R341) -/

/-- The active lanes, in ascending number. -/
def activeLanes (m : BitVec 4) : List (Fin 4) := ([0, 1, 2, 3] : List (Fin 4)).filter (fun i => bit m.toNat i.val)

/-- The lane that flit `n` of the port's stream goes on (R301). -/
def laneOf (m : BitVec 4) (n : Nat) : Fin 4 := (activeLanes m).getD (n % (activeLanes m).length) 0

/-- Is flit `seq` of the replay buffer one before `first`? -/
def seqBefore (first seq : BitVec 12) : Bool := decide (seq ≠ first) && decide ((first - seq).toNat ≤ 1024)

/-- The lanes that a flit goes on: a sequenced one before the first SEQ of a LANE symbol is resent on the lanes as they were (R303). -/
def Port.lanesFor (x : Port) (tag : BitVec 20) : BitVec 4 :=
  match x.laneFrom with
  | some (first, old) =>
    if bits tag.toNat 1 0 = 1 ∧ seqBefore first (BitVec.ofNat 12 (bits tag.toNat 13 2)) then old else x.lanes
  | none => x.lanes

/-- The replay buffer as it now stands; the old lanes are forgotten once it holds no flit that went on them. -/
def Port.keepReplay (x : Port) (l : List (BitVec 12 × TxFlit)) : Port :=
  { x with replay := l, laneFrom := x.laneFrom.filter (fun q => l.any (fun f => seqBefore q.1 f.1)) }

/-- A flit leaves on its lane. -/
def Port.putFlit (x : Port) (f : TxFlit) : Port :=
  { x with lineOut := x.lineOut ++ [⟨laneOf (x.lanesFor f.tag) x.lineCount, f⟩], lineCount := x.lineCount + 1 }

/-- Invert a body's CRC (R341). -/
def badCrc (body : List Byte) : List Byte := body.take 636 ++ (body.drop 636).map (fun b => ~~~ b)

/-- A flit is sent; ERR_INJECT [0] inverts the CRC of the next sequenced one. -/
def State.putFlit (s : State) (p : Nat) (f : TxFlit) : State :=
  let a := Reg.port.page p + Reg.header.ERR_INJECT
  if bits f.tag.toNat 1 0 = 1 ∧ s.regBit a 0 then (s.setFld a 0 0 0).modPort p (fun x => x.putFlit ⟨f.tag, badCrc f.body⟩)
  else s.modPort p (fun x => x.putFlit f)

/-! ## Acknowledgment and replay (R302) -/

/-- What the replay buffer holds after an acknowledgment of `seq`: nothing changes where it holds no such flit. -/
def replayAfter (l : List (BitVec 12 × TxFlit)) (seq : BitVec 12) : List (BitVec 12 × TxFlit) :=
  match l.findIdx? (fun x => decide (x.1 = seq)) with
  | some i => l.drop (i + 1)
  | none => l

/-- ACK (R302). -/
def State.ackIn (s : State) (p : Nat) (v : BitVec 64) : State :=
  let l := (s.port p).replay
  let l' := replayAfter l (BitVec.ofNat 12 (bits v.toNat 19 8))
  if l'.length = l.length then s else s.modPort p (fun x => { x.keepReplay l' with replaySince := s.time })

/-- Resend every flit from `seq` onward, or from the oldest; counted. In the Fatal state a port sends idle flits only (R397). -/
def State.resend (s : State) (p : Nat) (l : List (BitVec 12 × TxFlit)) : State :=
  if s.fatal then s
  else
    let s := l.foldl (fun s f => s.putFlit p f.2) s
    (s.modPort p (fun x => { x.keepReplay l with replaySince := s.time })).incFld (Reg.port.REPLAY_TOTAL p) 31 0

/-- NAK: every flit before the named SEQ is acknowledged by it, the others are resent. -/
def State.nakIn (s : State) (p : Nat) (v : BitVec 64) : State :=
  let seq : BitVec 12 := BitVec.ofNat 12 (bits v.toNat 19 8)
  let l := (s.port p).replay
  match l.findIdx? (fun x => decide (x.1 = seq)) with
  | some i => s.resend p (l.drop i)
  | none => s

/-- ACK. -/
def execAck (p : PortId) (s : State) : Out := .next (s.onSymbol p Sym.ACK (fun s v => s.ackIn p v))
/-- NAK. -/
def execNak (p : PortId) (s : State) : Out := .next (s.onSymbol p Sym.NAK (fun s v => s.nakIn p v))

/-- Is the link up and the port in use? -/
def State.linkUp (s : State) (p : Nat) : Bool := decide ((s.port p).link = .up)

/-- REPLAY_TIMEOUT: no ACK for the oldest flit within 4 µs. -/
def execReplayTimeout (p : PortId) (s : State) : Out :=
  .next (
    let x := s.port p
    if s.linkUp p && !x.replay.isEmpty && reachedUs (s.time - x.replaySince) 4 then s.resend p x.replay else s)

/-- TMO_LINK (R303): silence retires the port. -/
def execTmoLink (p : PortId) (s : State) : Out :=
  .next (if s.linkUp p && reachedUs (s.time - (s.port p).lastRx) (s.fld (Reg.port.TMO_LINK p) 23 0) then s.retirePort p else s)

/-- A CREDIT symbol (R304): the cumulative count of its class. -/
def State.creditIn (s : State) (p : Nat) (v : BitVec 64) : State :=
  let cls := bits v.toNat 10 8
  if 3 < cls then s
  else s.modPort p (fun x => { x with credit := x.credit.set (creditIx cls (symJob v)) (BitVec.ofNat 16 (bits v.toNat 26 11)) })

/-- CREDIT. -/
def execCredit (p : PortId) (s : State) : Out := .next (s.onSymbol p Sym.CREDIT (fun s v => s.creditIn p v))

/-- A LANE symbol (R303): both sides run on the new mask from the flit that it names; a flit before it that is resent goes on the
lanes as they were. -/
def State.laneIn (s : State) (p : Nat) (v : BitVec 64) : State :=
  let old := (s.port p).lanes
  let r := s.retireLanes p (BitVec.ofNat 4 (bits v.toNat 11 8))
  if r.2 then
    r.1.modPort p (fun x => { x with laneFrom := some (BitVec.ofNat 12 (bits v.toNat 23 12), old) }.keepReplay x.replay)
  else r.1

/-- LANE. -/
def execLane (p : PortId) (s : State) : Out := .next (s.onSymbol p Sym.LANE (fun s v => s.laneIn p v))

/-! ## The next packet (R304) -/

/-- Credit index of a packet. -/
def Packet.creditIx (k : Packet) : Nat := Sys2Proof.Machine.creditIx k.fields.cls k.fields.job

/-- Does this packet hold tags of the port's pool: a row, record or tensor write that this module sends? -/
def State.holdsTag (s : State) (k : Packet) : Bool :=
  decide (k.fields.src = s.moduleId) && (decide (k.fields.cls = 0) || (decide (k.fields.cls = 1) && decide (k.fields.kind = 0)))

/-- Is there credit for the packet's whole length? -/
def State.hasCredit (s : State) (p : Nat) (k : Packet) : Bool :=
  let x := s.port p
  decide (packetUnits k.payload.length ≤ ((x.credit.getD k.creditIx 0) - (x.used.getD k.creditIx 0)).toNat)

/-- The port's tag pool. -/
def portPool (p : Nat) : TagPool := .weir (Fin.ofNat 24 p)

/-- Does the port find the packet's tags in its pool (R285, R286)? -/
def State.hasTags (s : State) (p : Nat) (k : Packet) : Bool := decide (tagsOf k ≤ s.tagsFor (Master.port p) (portPool p))

/-- The port waits for tags where a packet with credit lacks them (R286). -/
def State.portJoins (s : State) (p : Nat) : State :=
  if (s.port p).txPk.toList.any (fun l => l.any (fun k => s.holdsTag k && s.hasCredit p k && !s.hasTags p k)) then
    s.joinPool (Master.port p) (portPool p)
  else s

/-- May the packet go: credit for its whole length, and room for its tags? -/
def State.mayGo (s : State) (p : Nat) (k : Packet) : Bool :=
  s.hasCredit p k && (!s.holdsTag k || s.hasTags p k)

/-- The first packet of a class that may go, in order within each credit. -/
def State.pickFrom (s : State) (p : Nat) : List Nat → List Packet → Option (Packet × List Packet)
  | _, [] => none
  | blocked, k :: ks =>
    if blocked.contains k.creditIx ∨ !s.mayGo p k then
      (State.pickFrom s p (k.creditIx :: blocked) ks).map (fun r => (r.1, k :: r.2))
    else some (k, ks)

/-- The first packet of class `c` that may go. -/
def State.pickOf (s : State) (p c : Nat) : Option (Packet × List Packet) :=
  s.pickFrom p [] ((s.port p).txPk[c]?.getD [])

/-- CLASS_WEIGHT of a class; a weight of 0 counts as 1. -/
def State.classWeight (s : State) (p c : Nat) : Nat := max 1 (s.fld (Reg.port.CLASS_WEIGHT p) (8 * c + 7) (8 * c))

/-- Deficit round robin over REDUCE, TENSOR and BULK: the class served, with the deficits as they then stand. A class gains
its weight times 64 bytes as its turn comes. -/
def State.drr (s : State) (p : Nat) : Nat → Vector Nat 4 → Option (Nat × Vector Nat 4)
  | 0, _ => none
  | n + 1, d =>
    let c := d[3]?.getD 0
    let next := (c + 1) % 3
    match s.pickOf p c with
    | some k =>
      let size := 16 + k.1.payload.length
      let have' := d[c]?.getD 0
      if size ≤ have' then some (c, d.setIfInBounds c (have' - size))
      else State.drr s p n ((d.setIfInBounds next (d[next]?.getD 0 + 64 * s.classWeight p next)).setIfInBounds 3 next)
    | none =>
      let d := d.setIfInBounds c 0
      State.drr s p n ((d.setIfInBounds next (d[next]?.getD 0 + 64 * s.classWeight p next)).setIfInBounds 3 next)

/-- A packet leaves: its credit used, its tags held. -/
def State.sendPacket (s : State) (p c : Nat) (k : Packet) (rest : List Packet) : State :=
  let n := BitVec.ofNat 16 (packetUnits k.payload.length)
  let keep := s.holdsTag k
  let s := if keep then s.useGrants (Master.port p) (portPool p) (tagsOf k) else s
  s.modPort p (fun x => { x with
    txPk := x.txPk.setIfInBounds c rest
    used := x.used.modify k.creditIx (fun m => m + n)
    held := if keep then x.held ++ [⟨k.fields.tag, k, s.time⟩] else x.held })

/-- ERR_INJECT [1]: the BROW packet that goes carries its checksum with bit 0 inverted (R341). -/
def State.injectBrow (s : State) (p : Nat) (k : Packet) : State × Packet :=
  let a := Reg.port.page p + Reg.header.ERR_INJECT
  if s.regBit a 1 ∧ k.fields.cls = 0 ∧ k.fields.kind = 0 then
    let i := k.payload.length - 8
    (s.setFld a 1 1 0, { k with payload := k.payload.set i (byteAt k.payload i ^^^ 1) })
  else (s, k)

/-- A packet of a slow job goes with SLOW set (R329); JOB names none in the other classes (R306). -/
def State.slowPacket (s : State) (k : Packet) : Packet :=
  if k.fields.cls < 2 ∧ s.slowFlag k.fields.job then { k with hdr := k.hdr ||| BitVec.ofNat 128 (2 ^ 11) } else k

/-- The bytes of a packet. -/
def Packet.bytes (k : Packet) : List Byte := leBytes 16 k.hdr.toNat ++ k.payload

/-- The next packet by class priority; its bytes as sent. -/
def State.nextPacket (s : State) (p : Nat) : Option (State × List Byte) :=
  match s.pickOf p 3 with
  | some r =>
    some (s.sendPacket p 3 r.1 r.2, r.1.bytes)
  | none =>
    match s.drr p 128 (s.port p).deficit with
    | none => none
    | some (c, d) =>
      match s.pickOf p c with
      | none => none
      | some r =>
        let k := s.slowPacket r.1
        let q := s.injectBrow p k
        some ((q.1.sendPacket p c k r.2).modPort p (fun x => { x with deficit := d }), q.2.bytes)

end Sys2Proof.Machine
end

