-- ==== Sys2Proof/Machine/Weir.lean ====
section
/-! DEFINITION. What a Weir port sends of itself (R304, R313, R320, R323, R335) and what it does with the packets and symbols of
the collectives and channels it receives (R305 to R336), timeouts included. -/

namespace Sys2Proof.Machine

/-! ## Work a port finds for itself -/

/-- Port `p` reads a collective's own memory: uncorrectable data is a fault of the job's step (assumption 18). -/
def State.collRead (s : State) (p j a n : Nat) : State × Option (List Byte) :=
  let r := s.memRead (Master.port p) a n
  match r.2 with
  | some d => (r.1, some d)
  | none => (r.1.stepFault Cause.MEM_UNCORRECTABLE (some j), none)

/-- A write of a collective. -/
def State.collWrite (s : State) (p j a : Nat) (d : List Byte) : State × Bool :=
  let r := s.memWrite (Master.port p) a d
  if r.2 then (r.1, true) else (r.1.stepFault Cause.MEM_UNCORRECTABLE (some j), false)

/-- Address of an all-gather row (R320). -/
def CollRec.gatherAddr (r : CollRec) (t p : Nat) : Nat := r.landBase + t * r.landT + p * r.landR

/-- The next all-gather packet of record `i` (R320 steps 2 and 3); the exponent record is written in the module's own memory
as it is sent. -/
def State.gatherSend (s : State) (p i : Nat) (r : CollRec) : State :=
  let g := s.gatherRec r
  let c := s.prog i
  let per := s.gatherPer r.job
  let t := g.t0 g.pos + c.agToSend / per
  let n := c.agToSend % per
  let next (s : State) : State := s.modProg i (fun c => { c with agToSend := c.agToSend + 1 })
  if n = 0 then
    let a := g.expBase + (g.tiles + t) * 512
    s.withAccess (Master.port p) [(a, 512), (g.expBase + t * 512, 512)] (fun s =>
      let q := s.collRead p r.job a 512
      match q.2 with
      | none => q.1
      | some d =>
        let w := q.1.collWrite p r.job (g.expBase + t * 512) d
        if w.2 then next (w.1.sendReduce p 3 i t 0 d) else w.1)
  else
    let a := g.gatherAddr t (n - 1)
    s.withAccess (Master.port p) [(a, r.run)] (fun s =>
      let q := s.collRead p r.job a r.run
      match q.2 with
      | none => q.1
      | some d => next (q.1.sendReduce p 2 i t (n - 1) d))

/-- Does record `i` have an all-gather packet to send? -/
def State.gatherDue (s : State) (p i : Nat) (r : CollRec) : Bool :=
  let g := s.gatherRec r
  decide (r.kind = 2) && decide (r.send = p) && s.jobRuns r.job && (s.prog i).agStarted && decide (1 < g.ring)
    && decide ((s.prog i).agToSend < g.owned g.pos * s.gatherPer r.job)

/-- First contributor's tiles of an agreement: those of the position before (R313, R323). -/
def CollRec.prevPos (r : CollRec) : Nat := (r.pos + r.ring - 1) % r.ring

/-- Does agreement record `i` have proposals to send? -/
def State.agreeDue (s : State) (p i : Nat) (r : CollRec) : Bool :=
  decide (r.kind = 4) && decide (r.send = p) && decide (r.phase = (s.job r.job).map) && s.jobRuns r.job
    && decide ((s.prog i).nextTile < r.owned r.prevPos)

/-- The owner's result of an agreement (R323): written, and sent on as an exponent record. -/
def State.agreeResult (s : State) (p i : Nat) (r : CollRec) (t : Nat) (d : List Byte) : State :=
  let w := s.collWrite p r.job (r.expBase + t * 512) d
  if w.2 then
    let s := w.1.modProg i (fun c => { c with landed := c.landed + 1 })
    if r.ring = 1 then s else s.sendReduce p 3 i t 0 d
  else w.1

/-- The proposals of the next tile that this position contributes first to. -/
def State.agreeSend (s : State) (p i : Nat) (r : CollRec) : State :=
  let t := r.t0 r.prevPos + (s.prog i).nextTile
  let a := r.landBase + t * 512
  s.withAccess (Master.port p) [(a, 512), (r.expBase + t * 512, 512)] (fun s =>
    let q := s.collRead p r.job a 512
    match q.2 with
    | none => q.1
    | some d =>
      let s := q.1.modProg i (fun c => { c with nextTile := c.nextTile + 1 })
      if r.ring = 1 then s.agreeResult p i r t d else s.sendReduce p 4 i t 0 d)

/-- REDUCE work of the port: the first all-gather or agreement record that has some. -/
def State.reduceWork (s : State) (p : Nat) : State :=
  match s.collRecs.find? (fun x => s.gatherDue p x.1 x.2 || s.agreeDue p x.1 x.2) with
  | some x => if x.2.kind = 2 then s.gatherSend p x.1 x.2 else s.agreeSend p x.1 x.2
  | none => s

/-- Offset of a channel in a list, 0 at the step boundary (R335). -/
def chanOffset (l : List (Nat × Nat)) (c : Nat) : Nat := ((l.find? (fun x => decide (x.1 = c))).map (fun x => x.2)).getD 0
/-- Advance it. -/
def chanAdvance (l : List (Nat × Nat)) (c n : Nat) : List (Nat × Nat) :=
  l.filter (fun x => decide (x.1 ≠ c)) ++ [(c, chanOffset l c + n)]

/-- Cut a run into payloads of at most 256 bytes (R307). -/
def cut256 : Nat → List Byte → List (List Byte)
  | 0, _ => []
  | n + 1, d => if d.isEmpty then [] else d.take 256 :: cut256 n (d.drop 256)

/-- One TWRITE of a SENDW (R335); its destination is a free value (assumption 3). -/
def State.sendTwrite (s : State) (p j chan : Nat) (d : List Byte) : State :=
  let q := s.fresh
  let t := q.2.newTag p
  let off := chanOffset t.2.chanSent chan
  let k := mkPacket 1 0 j (s.slowFlag j) s.moduleId (q.1.toNat % 2 ^ 14) (s.roster j) t.1 (chan % 2 ^ 12 + 2 ^ 12 * (off % 2 ^ 32)) d
  let s := t.2.queuePacket p k
  { s with chanSent := chanAdvance s.chanSent chan d.length }

/-- The SENDW of engine `e` to the port that its movement queue runs (R153), with its next run at the head of its input queue (R178). -/
def State.sendwOf (s : State) (p e : Nat) : Option (MovOp × IqEntry) :=
  let x := s.engine e
  match x.movQ with
  | o :: _ =>
    if o.kind = .sendw ∧ o.port = p then
      match x.iq[o.q]?.getD [] with
      | en :: _ => if en.seq = o.seq then some (o, en) else none
      | [] => none
    else none
  | [] => none

/-- The port takes the next SENDW run, the lowest engine first. -/
def State.sendwWork (s : State) (p : Nat) : State :=
  match (List.range 64).findSome? (fun e => (s.sendwOf p e).map (fun r => (e, r))) with
  | none => s
  | some (e, o, en) =>
    if !en.bad.isEmpty then s.engineFault e Cause.MEM_UNCORRECTABLE (badInjected en.bad)
    else
      let b := e / 8
      let j := s.barnJob b (s.barn b).ccSave.isSome
      let s := (s.modEngine e (fun x => { x with iq := modAt x.iq o.q (fun l => l.drop 1) })).modBarn b (fun x => { x with handed := true })
      (cut256 (en.data.length / 256 + 1) en.data).foldl (fun s d => s.sendTwrite p j o.chan d) s

/-- Work the port takes up before it chooses a packet. -/
def State.portWork (s : State) (p : Nat) : State :=
  let s := if ((s.port p).txPk[0]?.getD []).isEmpty then s.reduceWork p else s
  if ((s.port p).txPk[1]?.getD []).isEmpty then s.sendwWork p else s

/-! ## What a flit carries (R300, R304) -/

/-- Bytes for one packet area: packets end to end until it is full or nothing may go. -/
def State.fillArea (s : State) (p : Nat) : Nat → List Byte → State × List Byte
  | 0, bs => (s, bs)
  | n + 1, bs =>
    if 616 ≤ bs.length then (s, bs)
    else
      let s := s.portWork p
      match s.nextPacket p with
      | none => (s, bs)
      | some (s, b) => State.fillArea s p n (bs ++ b)

/-- A packet area of 616 bytes: what is left over is marked by a PAD header. -/
def padArea (bs : List Byte) : List Byte :=
  if 616 ≤ bs.length then bs.take 616 else bs ++ 7#8 :: List.replicate (615 - bs.length) 0

/-- Symbols that the link layer sends whatever the port's state (R213). -/
def linkLayer (v : BitVec 64) : Bool := decide (symType v = Sym.ACK) || decide (symType v = Sym.NAK) || decide (symType v = Sym.CREDIT)

/-- The control symbols of the next flit, and what stays: two slots, queued symbols before telemetry; only the link layer's
where the port is off line or no sequenced flit fits the replay buffer. -/
def State.pickSyms (s : State) (p : Nat) : List (BitVec 64) × State :=
  let x := s.port p
  let room := decide (x.replay.length < 1024)
  let waiting := if x.offApplied then x.txSyms.filter linkLayer else x.txSyms
  let can := if room then waiting else waiting.filter linkLayer
  let now := can.take 2
  let rest := if room then waiting.drop 2 else (can.drop 2) ++ waiting.filter (fun v => !linkLayer v)
  let tel := if room && !x.offApplied && !s.fatal then x.telQ.take (2 - now.length) else []
  (now ++ tel, s.modPort p (fun x => { x with txSyms := rest, telQ := x.telQ.drop tel.length }))

/-- The packet bytes of the next flit, from those of a packet already begun. Symbols go ahead of every packet (R304): while more
wait than the flit's slots hold, no new packet is taken (DEDUCED). -/
def State.flitArea (s : State) (p : Nat) (bs : List Byte) : State × List Byte :=
  if (s.port p).txSyms.isEmpty then s.fillArea p 64 bs else (s, bs)

/-- The 640 bytes of a body, with its CRC. -/
def flitBody (tag : BitVec 20) (area : List Byte) (syms : List (BitVec 64)) : List Byte :=
  let b := area ++ leBytes 8 (syms.getD 0 0).toNat ++ leBytes 8 (syms.getD 1 0).toNat ++ [0, 0, 0, 0]
  b ++ leBytes 4 (flitCrc tag b).toNat

/-! ## TACK (R313) -/

/-- Remove a held tag. -/
def State.freeTag (s : State) (p cls tag : Nat) : State :=
  s.modPort p (fun x => { x with held := x.held.filter (fun h => !(decide (h.tag = tag) && decide (h.pkt.fields.cls = cls))) })

/-- The held packet of a class and tag. -/
def Port.heldOf (x : Port) (cls tag : Nat) : Option HeldTag :=
  x.held.find? (fun h => decide (h.tag = tag) && decide (h.pkt.fields.cls = cls))

/-- A clear TACK counts for its record. -/
def State.tackDone (s : State) (k : Packet) : State :=
  let h := k.fields
  if h.kind = 2 ∨ h.kind = 3 then s.modProg h.coll (fun c => { c with agTacked := c.agTacked + 1 })
  else s.modProg h.coll (fun c => { c with tacked := c.tacked + 1 })

/-- A TACK: the tags and the copy freed, or the row sent again from its copy. -/
def State.tackIn (s : State) (p : Nat) (v : BitVec 64) : State :=
  let tag := bits v.toNat 16 8
  match (s.port p).heldOf 0 tag with
  | none => s
  | some h =>
    let s := s.freeTag p 0 tag
    if bit v.toNat 17 then s.modPort p (fun x => { x with txPk := modAt x.txPk 0 (fun l => h.pkt :: l) })
    else s.tackDone h.pkt

/-- TACK. -/
def execTack (p : PortId) (s : State) : Out := .next (s.onSymbol p Sym.TACK (fun s v => s.tackIn p v))

/-! ## Slow members (R329) -/

/-- The port has received SLOW for a job. -/
def State.slowIn (s : State) (p j : Nat) : State :=
  (s.modPort p (fun x => { x with slowRx := true })).modJob j (fun x => { x with slow := true })

/-- SLOW: a symbol of another step says nothing of this one. -/
def execSlow (p : PortId) (s : State) : Out :=
  .next (s.onSymbol p Sym.SLOW (fun s v => if bits v.toNat 17 8 = s.step10 then s.slowIn p (symJob v) else s))

/-- SLOW of a packet's header. -/
def State.slowOf (s : State) (p : Nat) (k : Packet) : State := if k.fields.slow then s.slowIn p k.fields.job else s

/-! ## Symbols of a step -/

/-- A symbol whose STEP field [hi:lo] names the next step stays; one of another step than this is dropped. -/
def State.onStepSymbol (s : State) (p ty hi lo : Nat) (f : State → BitVec 64 → State) : State :=
  match takeSym ty (s.port p).rxQ with
  | none => s
  | some x =>
    let st := bits x.1.toNat hi lo
    if st = (s.step10 + 1) % 1024 then s
    else
      let s := s.modPort p (fun y => { y with rxQ := x.2 })
      if st = s.step10 then f s x.1 else s

/-- ABORT (R331, R333). -/
def State.abortIn (s : State) (v : BitVec 64) : State :=
  let j := symJob v
  let cause := bits v.toNat 15 8
  let origin := bits v.toNat 39 26
  if !s.jobLive j then s
  else if bit v.toNat 40 then s.lateRun j cause origin false
  else if (s.job j).aborted then s
  else s.stepAbort cause origin false (some j)

/-- ABORT. -/
def execAbort (p : PortId) (s : State) : Out := .next (s.onStepSymbol p Sym.ABORT 25 16 (fun s v => s.abortIn v))

/-! ## The verdict (R326, R327) -/

/-- Lap 1 at this module: VERDICTj, VERDICT of every Mill, the OPTIMISE phase, a late fault that was held. -/
def State.takeVerdict (s : State) (j : Nat) (nf spike : Bool) : State :=
  let fin := !nf && !spike
  let s := s.setReg (Reg.global.VERDICT j) (BitVec.ofNat 32 ((if fin then 1 else 2) + 4 * b2n nf + 8 * b2n spike))
  let s := s.millsVerdict fin
  let s := s.modJob j (fun x => { x with phase := 2, map := s.pmSlot j 2 })
  s.lateHeld j

/-- The result of lap 0 at position 0: lap 1 goes out, and the result is taken. -/
def State.verdictResult (s : State) (j : Nat) (r : CollRec) (nf spike : Bool) : State :=
  let s := if r.ring = 1 then s else s.sendSym r.send (symVerdict j 1 nf spike s.step10)
  s.takeVerdict j nf spike

/-- Lap 0 at a member whose input is ready: its bits go on. -/
def State.verdictPass (s : State) (j : Nat) (r : CollRec) (v : BitVec 64) : State :=
  let s := s.modJob j (fun x => { x with heldVerdict := none, passed := true })
  s.sendSym r.send (symVerdict j 0 (bit v.toNat 9 || (s.job j).nf) (bit v.toNat 10 || (s.job j).spike) s.step10)

/-- A VERDICT symbol. -/
def State.verdictIn (s : State) (v : BitVec 64) : State :=
  let j := symJob v
  match s.verdictRec j with
  | none => s
  | some (_, r) =>
    if (s.job j).aborted ∨ s.fld (Reg.global.VERDICT j) 1 0 ≠ 0 then s
    else if bit v.toNat 8 then
      let s := if r.nextPos = 0 then s else s.sendSym r.send v
      s.takeVerdict j (bit v.toNat 9) (bit v.toNat 10)
    else if r.pos = 0 then s.verdictResult j r (bit v.toNat 9) (bit v.toNat 10)
    else if (s.job j).ready then s.verdictPass j r v
    else s.modJob j (fun x => { x with heldVerdict := some v })

/-- VERDICT. -/
def execVerdict (p : PortId) (s : State) : Out := .next (s.onStepSymbol p Sym.VERDICT 20 11 (fun s v => s.verdictIn v))

/-- Must the read of the loss wait for its memory (R268)? -/
def State.lossWaits (s : State) : Bool :=
  (s.regBit Reg.global.LSD_CTRL 0 || s.regBit Reg.global.LSD_CTRL 1) && s.memWaits (s.pair Reg.global.LSD_ADDR_LO Reg.global.LSD_ADDR_HI) 4

/-- One step of the loss-spike detector (R359): SPIKE, and mean, variance and count to come. -/
def lsd (x mean var k alpha : Word) (count warm : Nat) : Bool × Option (Word × Word × Nat) :=
  if !F32.isFinite x then (true, none)
  else if count = 0 then (false, some (x, 0, 1))
  else
    let d := F32.sub x mean
    if warm ≤ count ∧ F32.lt 0 d ∧ F32.lt (F32.mul (F32.mul k k) var) (F32.mul d d) then (true, none)
    else
      let m := F32.add mean (F32.mul alpha d)
      let v := F32.mul (F32.sub F32.one alpha) (F32.add var (F32.mul alpha (F32.mul d d)))
      (false, some (m, v, min (count + 1) 65535))

/-- The loss at LSD_ADDR; one in an uncorrectable line is a free value (assumption 3). -/
def State.readLoss (s : State) : Word × State :=
  let r := s.memRead Master.none (s.pair Reg.global.LSD_ADDR_LO Reg.global.LSD_ADDR_HI) 4
  match r.2 with
  | some d => (wordAt d 0, r.1)
  | none => r.1.fresh

/-- The detector's part of the verdict input (R359). -/
def State.runLsd (s : State) (x : Word) : Bool × State :=
  let r := lsd x (s.reg Reg.global.LSD_MEAN) (s.reg Reg.global.LSD_VAR) (s.reg Reg.global.LSD_K) (s.reg Reg.global.LSD_ALPHA)
    (s.fld Reg.global.LSD_COUNT 15 0) (s.fld Reg.global.LSD_CTRL 31 16)
  let s := match r.2 with
    | some u => { s with lsdPending := some u }
    | none => s
  (r.1, if r.1 then s.incFld Reg.global.LSD_COUNT 31 16 else s)

/-- VERIFY (R357): the stored loss compared, bit for bit. -/
def State.runVerify (s : State) (x : Word) : Bool × State :=
  if x = s.reg Reg.global.VERIFY_EXPECT then (false, s.setFld Reg.global.LSD_CTRL 3 3 1)
  else (true, s.setFld Reg.global.LSD_CTRL 2 2 1)

/-- The module's SPIKE input. -/
def State.spikeInput (s : State) : Bool × State :=
  let en := s.regBit Reg.global.LSD_CTRL 0
  let ve := s.regBit Reg.global.LSD_CTRL 1
  if !en && !ve then (false, s.setFld Reg.global.LSD_CTRL 4 4 0)
  else
    let l := s.readLoss
    let s := l.2.setReg Reg.global.LSD_LAST l.1
    let a := if en then s.runLsd l.1 else (false, s)
    let b := if ve then a.2.runVerify l.1 else (false, a.2)
    (a.1 || b.1, b.2.setFld Reg.global.LSD_CTRL 4 4 (b2n (a.1 || b.1)))

/-- The module's NF input (R326): every engine's STEP_NF of this step, every non-finite row of its ports. -/
def State.nfInput (s : State) : Bool :=
  (List.range 64).any (fun e => s.regBit (Reg.engine.SC_NF_STEP e) 31 && !(s.engine e).stepOver) || (List.range 16).any (fun j => (s.job j).nf)

/-- Does the job's COMPUTE map hold a verdict record (R348)? -/
def State.hasVerdict (s : State) (j : Nat) : Bool :=
  s.collRecs.any (fun x => decide (x.2.kind = 3) && decide (x.2.job = j) && decide (x.2.phase = s.pmSlot j 0))

/-- May the input of a job become ready: its reductions complete, the tokens there? -/
def State.inputReady (s : State) (j : Nat) (r : CollRec) : Bool :=
  s.hasVerdict j && decide ((s.job j).phase = 0) && !(s.job j).aborted && !(s.job j).ready
    && (s.liveRecs j).all (fun x => !x.2.isReduce || s.recDone x.1 x.2) && decide (r.tn ≤ s.token r.tbarn r.tcount)
    && !s.lossWaits && s.up && !s.fatal

/-- The input is ready: the VERDICT phase begins; position 0 starts lap 0, another passes on the symbol it held. -/
def State.verdictInput (s : State) (j : Nat) (r : CollRec) : State :=
  let s := s.setFld (Reg.barn.TOKEN r.tbarn r.tcount) 15 0 (s.token r.tbarn r.tcount - r.tn)
  let nf := s.nfInput
  let q := s.spikeInput
  let s := q.2
  let s := s.modJob j (fun x => { x with nf := nf, spike := q.1, ready := true, phase := 1, map := s.pmSlot j 1 })
  if r.pos = 0 then
    let s := s.modJob j (fun x => { x with passed := true })
    if r.ring = 1 then s.verdictResult j r nf q.1 else s.sendSym r.send (symVerdict j 0 nf q.1 s.step10)
  else match (s.job j).heldVerdict with
    | some v => s.verdictPass j r v
    | none => s

/-- VERDICT_INPUT_READY. -/
def execVerdictInputReady (j : JobId) (s : State) : Out :=
  .next (match s.verdictRec j with
    | some (_, r) => if s.inputReady j r then s.verdictInput j r else s
    | none => s)

/-! ## Rows of the reduction (R313 to R319, R324) -/

/-- TACK of a received packet, and its buffer freed. -/
def State.tackPacket (s : State) (p : Nat) (k : Packet) (bad : Bool) : State :=
  (s.sendSym p (symTack k.fields.job k.fields.tag bad)).freePacket p k

/-- TACK of a row that stays in the step buffer. -/
def State.bufferRow (s : State) (p : Nat) (k : Packet) : State :=
  let h := k.fields
  let s := s.sendSym p (symTack h.job h.tag false)
  s.modPort p (fun x => { x with upRows := x.upRows ++ [⟨h.coll, h.tile, h.row, k.payload, s.time⟩] })

/-- BROW: the row's checksum, TACK, the step buffer (R313 step 4, R328). -/
def State.browIn (s : State) (p : Nat) (k : Packet) : State :=
  let s := s.slowOf p k
  let r := rowBlocks k.payload
  if r.2 = leBytes 8 (rowChecksum r.1).toNat then s.bufferRow p k
  else (s.tackPacket p k true).upstreamBad p

/-- BROW. -/
def execBrow (p : PortId) (s : State) : Out :=
  .next (s.onPacket p 0 0 (fun _ => s.sliceHoldsPort p) (fun _ => []) (fun s k => s.browIn p k))

/-- The upstream row of a local one, in the step buffer of the record's RECV port. -/
def State.upstreamOf (s : State) (q : Nat) (l : RedRow) : Option RedRow :=
  (s.port q).upRows.find? (fun u => decide (u.coll = l.coll) && decide (u.tile = l.tile) && decide (u.row = l.row))

/-- Is it the same row of the same record? -/
def RedRow.same (a b : RedRow) : Bool := decide (a.coll = b.coll) && decide (a.tile = b.tile) && decide (a.row = b.row)

/-- Both rows leave; the step buffer's room is given back, and the job's next row waits from now on. -/
def State.takeRows (s : State) (p q : Nat) (l u : RedRow) (j : Nat) : State :=
  let s := s.modPort p (fun x => { x with
    localRows := (x.localRows.filter (fun v => !v.same l)).map (fun (v : RedRow) =>
      if (s.collRec v.coll).job = j then { v with since := s.time } else v) })
  let s := s.modPort q (fun x => { x with upRows := x.upRows.filter (fun v => !v.same u) })
  s.giveCredit q (3 + j) (packetUnits u.data.length)

/-- Promotions of this addition: counted, the first of a step reported (R314). -/
def State.countPromoted (s : State) (p n : Nat) : State :=
  if n = 0 then s
  else
    let s := s.addFld (Reg.port.PROMOTED p) 31 0 n
    if (s.port p).promoReported then s
    else (s.modPort p (fun x => { x with promoReported := true })).report (.port p)
      { cause := Cause.REDUCE_PROMOTED, cls := Cls.corrected }

/-- The adder on two block rows (R314, R316, R328). -/
def State.addBlockRows (s : State) (p i : Nat) (r : CollRec) (l : RedRow) (up : List Byte) : State :=
  let a := rowBlocks up
  let b := rowBlocks l.data
  if !rowsMatch a.1 b.1 then s.collFormat p r.job
  else
    let o := addRows a.1 b.1 (rowChecksum a.1) (rowChecksum b.1)
    let inj := s.regBit (Reg.port.page p + Reg.header.ERR_INJECT) 2
    let s := if inj then s.setFld (Reg.port.page p + Reg.header.ERR_INJECT) 2 2 0 else s
    let c := if inj then o.2 ^^^ 1 else o.2
    let s := s.countPromoted p (((a.1.zip b.1).zip o.1).filter (fun x => grewBlock x.1.1 x.1.2 x.2)).length
    if c ≠ rowChecksum o.1 then s.adderBad p r.job inj
    else s.rowOn p i r l.tile l.row o.1 c

/-- The adder on two float rows (R324): upstream first; NF is the OR of the inputs' and of any non-finite element. -/
def State.addFloatRows (s : State) (p i : Nat) (r : CollRec) (l : RedRow) (up : List Byte) : State :=
  let n := 16 * r.fmt.width
  let a := r.floats (up.take n)
  let b := r.floats l.data
  let o := r.addFloats a b
  s.floatOn p i r l.tile l.row o (bit (leNat (up.drop n)) 0 || r.floatNf a || r.floatNf b || r.floatNf o)

/-- The local rows that come next: the oldest of each job. A job's rows keep their order (R312, R313). -/
def State.adderHeads (s : State) (p : Nat) : List RedRow :=
  let rows := (s.port p).localRows
  let job (l : RedRow) : Nat := (s.collRec l.coll).job
  (rows.zipIdx.filter (fun x => (rows.take x.2).all (fun y => decide (job y ≠ job x.1)))).map (fun x => x.1)

/-- The pools that the sum of a row needs, where this module lands it. -/
def State.adderPools (s : State) (l : RedRow) : List (TagPool × Nat) :=
  let r := s.collRec l.coll
  if r.owner l.tile = r.pos then accPools (r.landNeeds l.tile l.row) else []

/-- May the adder take this row but for tags: its upstream row is held, and a landing can be made? -/
def State.adderPair (s : State) (l : RedRow) : Option (RedRow × RedRow) :=
  let r := s.collRec l.coll
  if !s.jobRuns r.job ∨ (r.owner l.tile = r.pos ∧ s.landWaits r l.tile l.row) then none
  else (s.upstreamOf r.recv l).map (fun u => (l, u))

/-- The adder's next row: one whose upstream row is held too, and that finds tags for its landing; where none does, the port waits for
those (R286). Under a LINK slice the adder is busy (R409). -/
def State.adderStep (s : State) (p : Nat) : State :=
  if !s.up ∨ s.fatal ∨ s.sliceHoldsPort p then s
  else
    let m := Master.port p
    let pairs := (s.adderHeads p).filterMap s.adderPair
    match pairs.find? (fun x => s.tagsReady m (s.adderPools x.1)) with
    | none => pairs.foldl (fun t x => t.joinPools m (s.adderPools x.1)) s
    | some (l, u) =>
      let r := s.collRec l.coll
      let s := (s.useTags m (s.adderPools l)).takeRows p r.recv l u r.job
      if r.kind = 1 then s.addFloatRows p l.coll r l u.data else s.addBlockRows p l.coll r l u.data

/-- REDUCE_ADD. -/
def execReduceAdd (p : PortId) (s : State) : Out := .next (s.adderStep p)

/-- FROW (R324): TACK, the step buffer, the NF bit of its trailer; the addition follows at once where the local row is held. -/
def State.frowIn (s : State) (p : Nat) (k : Packet) : State :=
  let s := s.slowOf p k
  let r := s.collRec k.fields.coll
  let s := if bit (leNat (k.payload.drop (16 * r.fmt.width))) 0 then s.modJob r.job (fun x => { x with nf := true }) else s
  (s.bufferRow p k).adderStep r.send

/-- FROW. -/
def execFrow (p : PortId) (s : State) : Out := .next (s.onPacket p 0 1 (fun _ => false) (fun _ => []) (fun s k => s.frowIn p k))

/-! ## All-gather packets (R320, R323) -/

/-- A received all-gather packet: written, answered with TACK, forwarded unless the next position is its owner. -/
def State.gatherIn (s : State) (p : Nat) (k : Packet) (g : CollRec) (a : Nat) : State :=
  let h := k.fields
  let s := (s.slowOf p k).modProg h.coll (fun c => { c with since := s.time })
  let w := s.collWrite p g.job a k.payload
  if w.2 then
    let s := w.1.modProg h.coll (fun c => { c with agWritten := c.agWritten + 1 })
    let s := s.tackPacket p k false
    if g.nextPos = g.owner h.tile then s else s.sendReduce g.send h.kind h.coll h.tile h.row k.payload
  else w.1.freePacket p k

/-- Address that a GROW or EXPREC is written at. -/
def State.gatherPlace (s : State) (k : Packet) : Nat :=
  let h := k.fields
  let r := s.collRec h.coll
  if h.kind = 2 then r.gatherAddr h.tile h.row
  else (if r.kind = 2 then (s.pairRec r).expBase else r.expBase) + h.tile * 512

/-- The ring of an all-gather or agreement record. -/
def State.ringRec (s : State) (i : Nat) : CollRec :=
  let r := s.collRec i
  if r.kind = 2 then s.gatherRec r else r

/-- GROW. -/
def execGrow (p : PortId) (s : State) : Out :=
  .next (s.onPacket p 0 2 (fun _ => false) (fun k => [(s.gatherPlace k, k.payload.length)])
    (fun s k => s.gatherIn p k (s.ringRec k.fields.coll) (s.gatherPlace k)))

/-- EXPREC. -/
def execExprec (p : PortId) (s : State) : Out :=
  .next (s.onPacket p 0 3 (fun _ => false) (fun k => [(s.gatherPlace k, k.payload.length)])
    (fun s k => s.gatherIn p k (s.ringRec k.fields.coll) (s.gatherPlace k)))

/-- Byte-wise maximum. -/
def maxBytes (a b : List Byte) : List Byte := (a.zip b).map (fun x => if x.1.toNat < x.2.toNat then x.2 else x.1)

/-- AGREE (R323): the maximum with this member's proposals goes on; the owner's is the result. -/
def State.agreeIn (s : State) (p : Nat) (k : Packet) : State :=
  let h := k.fields
  let r := s.collRec h.coll
  let q := (s.slowOf p k).collRead p r.job (r.landBase + h.tile * 512) 512
  match q.2 with
  | none => q.1.freePacket p k
  | some d =>
    let s := (q.1.tackPacket p k false).modProg h.coll (fun c => { c with since := s.time, agreed := c.agreed + 1 })
    let m := maxBytes k.payload d
    if r.owner h.tile = r.pos then s.agreeResult r.send h.coll r h.tile m else s.sendReduce r.send 4 h.coll h.tile 0 m

/-- The memory accesses of an agreement packet. -/
def State.agreeNeeds (s : State) (k : Packet) : List (Nat × Nat) :=
  let r := s.collRec k.fields.coll
  [(r.landBase + k.fields.tile * 512, 512), (r.expBase + k.fields.tile * 512, 512)]

/-- AGREE. -/
def execAgree (p : PortId) (s : State) : Out :=
  .next (s.onPacket p 0 4 (fun _ => false) s.agreeNeeds (fun s k => s.agreeIn p k))

/-- ALLGATHER_START (R320, R348): the verdict known and every Mill at its step safe point, the GATHER phase begins. -/
def State.gatherReady (s : State) (j : Nat) : Bool :=
  decide ((s.job j).phase = 2) && decide (s.fld (Reg.global.VERDICT j) 1 0 ≠ 0) && !(s.job j).aborted
    && (List.range 16).all s.mkSafe && s.up && !s.fatal

/-- A ring of one copies its staged exponent records into its table, tile by tile (R320 step 2), once their memory and the port's tags
let it. -/
def State.gatherAlone (s : State) (i : Nat) (g : CollRec) : State :=
  if g.ring = 1 then
    s.withAccess (Master.port g.send) [(g.expBase, 2 * g.tiles * 512)] (fun s =>
      let s := (List.range g.tiles).foldl (fun s t =>
        let q := s.collRead g.send g.job (g.expBase + (g.tiles + t) * 512) 512
        match q.2 with
        | some d => (q.1.collWrite g.send g.job (g.expBase + t * 512) d).1
        | none => q.1) s
      s.modProg i (fun c => { c with agToSend := g.tiles * s.gatherPer g.job }))
  else s

/-- The all-gather records of the active map begin. -/
def State.startGathers (s : State) (j : Nat) : State :=
  ((s.liveRecs j).filter (fun x => decide (x.2.kind = 2))).foldl (fun s x =>
    let s := s.modProg x.1 (fun c => { c with agStarted := true, since := s.time })
    s.gatherAlone x.1 (s.gatherRec x.2)) s

/-- The rings of one whose copies waited try again. -/
def State.aloneAgain (s : State) : State :=
  (s.coll.filter (fun c => c.agStarted && decide (c.agToSend = 0))).foldl (fun s c =>
    let r := s.collRec c.idx
    if r.kind = 2 ∧ s.jobRuns r.job then s.gatherAlone c.idx (s.gatherRec r) else s) s

/-- ALLGATHER_START. -/
def execAllgatherStart (j : JobId) (s : State) : Out :=
  .next (
    if s.gatherReady j then
      let s := s.modJob j (fun x => { x with phase := 3, map := s.pmSlot j 3 })
      if (s.job j).late then s else s.startGathers j
    else s)

/-! ## Tiles from Winnow and from memory (R311, R312, R325) -/

/-- The record a tile of a hold buffer belongs to (R311): float tiles (RED 3) to KIND 1, block tiles to KIND 0. -/
def State.tileRec (s : State) (j : Nat) (h : HoldBuf) : Option (Nat × CollRec) :=
  (s.liveRecs j).find? (fun x => decide (x.2.send = h.port) && decide (x.2.layer = h.layer)
    && decide (x.2.kind = if h.red = 3 then 1 else 0))

/-- Its tile index (R311). -/
def CollRec.tileOf (r : CollRec) (h : HoldBuf) : Int :=
  r.tBase + (h.row0 / 128 : Nat) * r.rowStride + (h.col0 / 128 : Nat) * r.colStride

/-- A released tile at its port: taken whole when it is the next the port expects (R140, R312). -/
def State.handover (s : State) (e : Nat) (h : HoldBuf) : State :=
  let b := e / 8
  let j := s.barnJob b h.cc
  let drop (s : State) : State := s.modEngine e (fun x => { x with holds := x.holds.filter (fun y => decide (y.seq ≠ h.seq)) })
  match s.tileRec j h with
  | none => (drop s).collFormat h.port j
  | some (i, r) =>
    let t := r.tileOf h
    if t < 0 ∨ (r.tiles : Int) ≤ t then (drop s).collFormat h.port j
    else
      let t := t.toNat
      if !s.jobRuns j ∨ (s.prog i).nextTile ≠ t ∨ !s.servesRec i r ∨ s.tileSliced r t ∨ s.sliceHoldsPort h.port ∨ !s.up ∨ s.fatal then s
      else s.withAccess (Master.port h.port) (r.tileNeeds t) (fun s =>
        ((drop s).modBarn b (fun x => { x with handed := true })).localTile h.port i r t h.rows)

/-- WEIR_TILE_HANDOVER: the engine's oldest released tile. -/
def execWeirTileHandover (e : EngId) (s : State) : Out :=
  .next (match (s.engine e).holds.find? (fun h => h.released) with
    | some h => s.handover e h
    | none => s)

/-- One row of FP32 words as Winnow converts it for a port (R112, R324); BI24 or BI16 by Config (assumption 17). -/
def CollRec.bucketRow (r : CollRec) (d exps : List Byte) (p : Nat) : List Byte :=
  let vs := (List.range 128).map (fun q => F32.val (wordAt d (4 * q)))
  if r.kind = 1 then r.floatBytes (vs.map (fun v => r.fmt.encode .nearest false v))
  else blockRow ((List.range 4).map (fun c =>
    RBlock.ofVals (byteAt exps (4 * p + c)).toNat (if Config.bucketBi24 then 1 else 0) ((vs.drop (32 * c)).take 32)))

/-- One tile of a bucket. -/
def State.bucketTile (s : State) (p i : Nat) (r : CollRec) (t : Nat) : State :=
  if !s.jobRuns r.job then s
  else
    let q := s.collRead p r.job (r.srcBase + t * 65536) 65536
    match q.2 with
    | none => q.1
    | some d =>
      let x := if r.kind = 1 then (q.1, some []) else q.1.collRead p r.job (r.expBase + t * 512) 512
      match x.2 with
      | none => x.1
      | some exps => x.1.localTile p i r t ((List.range 128).map (fun row => r.bucketRow ((d.drop (512 * row)).take 512) exps row))

/-- Tiles of the next group. -/
def State.bucketGroup (s : State) (i : Nat) (r : CollRec) : List Nat :=
  let t := (s.prog i).nextTile
  (List.range (min r.bucketTiles (r.tiles - t))).map (fun n => t + n)

/-- The memory accesses of the group. -/
def State.bucketNeeds (s : State) (i : Nat) (r : CollRec) : List (Nat × Nat) :=
  (s.bucketGroup i r).flatMap (fun t => (r.srcBase + t * 65536, 65536) :: (r.expBase + t * 512, 512) :: r.tileNeeds t)
/-- Must the group wait for adders under test? -/
def State.bucketSliced (s : State) (i : Nat) (r : CollRec) : Bool := (s.bucketGroup i r).any (s.tileSliced r)

/-- The bucket record that the port serves next. -/
def State.bucketRec (s : State) (p : Nat) : Option (Nat × CollRec) :=
  s.collRecs.find? (fun x => x.2.isReduce && x.2.bucket && decide (x.2.send = p) && decide (x.2.phase = (s.job x.2.job).map)
    && s.jobRuns x.2.job && decide ((s.job x.2.job).phase = 0) && decide ((s.prog x.1).nextTile < x.2.tiles) && s.servesRec x.1 x.2)

/-- BUCKET_GROUP (R325): tokens taken, then each tile converted and reduced. -/
def execBucketGroup (p : PortId) (s : State) : Out :=
  .next (match s.bucketRec p with
    | none => s
    | some (i, r) =>
      if s.token r.tbarn r.tcount < r.tn ∨ s.bucketSliced i r ∨ s.sliceHoldsPort p ∨ !s.up ∨ s.fatal then s
      else s.withAccess (Master.port p) (s.bucketNeeds i r) (fun s =>
        let ts := s.bucketGroup i r
        let s := s.setFld (Reg.barn.TOKEN r.tbarn r.tcount) 15 0 (s.token r.tbarn r.tcount - r.tn)
        ts.foldl (fun s t => s.bucketTile p i r t) s))

/-! ## Point-to-point tensors (R335) -/

/-- The channel record's fields. -/
structure ChanRec where
  base : Nat
  ring : Nat
  kind : Nat
  target : Nat
  token : Nat
  n : Nat
  sigBytes : Nat

/-- Record of a channel in CHAN_TABLE. -/
def chanRecOf (P : Nat) : ChanRec :=
  { base := bits P 41 0, ring := bits P 55 48, kind := bits P 57 56, target := bits P 62 58, token := bits P 67 64, n := bits P 95 80,
    sigBytes := bits P 127 96 }

/-- Address of a channel's record in CHAN_TABLE. -/
def State.chanAddr (s : State) (c : Nat) : Nat := s.pair Reg.global.CHAN_TABLE_LO Reg.global.CHAN_TABLE_HI + 16 * c
/-- The record as it stands in memory. -/
def State.chanRec (s : State) (c : Nat) : ChanRec := chanRecOf (leNat (s.rawBytes (s.chanAddr c) 16))

/-- Address that a TWRITE on channel `c` lands at. -/
def ChanRec.place (c : ChanRec) (off : Nat) : Nat := c.base + off % 2 ^ c.ring

/-- The memory accesses of a TWRITE: its channel's record, its bytes, and the route of its TACKP. -/
def State.twriteNeeds (s : State) (k : Packet) : List (Nat × Nat) :=
  [(s.chanAddr k.fields.chan, 16), ((s.chanRec k.fields.chan).place k.fields.tensorOff, k.payload.length),
   (s.routeAddr (s.job k.fields.job).map k.fields.src, 1)]

/-- Signals of a channel; one that its counter cannot take is refused with FORMAT. -/
def State.chanSignals (s : State) (p : Nat) (c : ChanRec) : Nat → State
  | 0 => s
  | n + 1 =>
    match s.deliver c.kind c.target c.token c.n with
    | some t => State.chanSignals t p c n
    | none => State.chanSignals (s.report (.port p) { cause := Cause.FORMAT, cls := Cls.contained }) p c n

/-- Bytes landed on a channel are counted, and its signals sent. -/
def State.chanLand (s : State) (p chan : Nat) (c : ChanRec) (n : Nat) : State :=
  let a := chanOffset s.chanLanded chan
  let s := { s with chanLanded := chanAdvance s.chanLanded chan n }
  if c.sigBytes = 0 then s else s.chanSignals p c ((a + n) / c.sigBytes - a / c.sigBytes)

/-- TACKP for a write that memory accepted, on the route to its sender. -/
def State.answerTwrite (s : State) (p : Nat) (k : Packet) : State :=
  let h := k.fields
  let r := s.routeBy (Master.port p) (s.job h.job).map h.src
  let s := r.1
  match r.2 with
  | some q => s.queuePacket q (mkPacket 1 1 h.job (s.slowFlag h.job) s.moduleId h.src (s.roster h.job) h.tag (bits h.rest 43 0) [])
  | none => s

/-- TWRITE: its channel's record is read; with one that cannot be read, or bytes that memory refuses, nothing lands and no TACKP goes
(R245). -/
def State.twriteIn (s : State) (p : Nat) (k : Packet) : State :=
  let h := k.fields
  let q := (s.slowOf p k).memRead (Master.port p) (s.chanAddr h.chan) 16
  match q.2 with
  | none => q.1.freePacket p k
  | some d =>
    let c := chanRecOf (leNat d)
    let w := q.1.memWrite (Master.port p) (c.place h.tensorOff) k.payload
    let s := w.1.freePacket p k
    if w.2 then (s.answerTwrite p k).chanLand p h.chan c k.payload.length else s

/-- TWRITE. -/
def execTwrite (p : PortId) (s : State) : Out :=
  .next (s.onPacket p 1 0 (fun _ => false) s.twriteNeeds (fun s k => s.twriteIn p k))

/-- TACKP: the tag of the TWRITE is free. -/
def execTackp (p : PortId) (s : State) : Out :=
  .next (s.onPacket p 1 1 (fun _ => false) (fun _ => []) (fun s k => ((s.slowOf p k).freeTag p 1 k.fields.tag).freePacket p k))

/-! ## Bulk replies (R307, R336) -/

/-- The Flume whose request a reply answers. -/
def State.bulkOf (s : State) (p tag : Nat) : Option (Nat × BulkWait) :=
  (List.range 32).findSome? (fun f =>
    match (s.flume f).cur with
    | some t => if t.d.weirPort = p then ((s.flume f).bulk.find? (fun w => decide (w.tag = tag) && w.data.isNone)).map (fun w => (f, w)) else none
    | none => none)

/-- A reply's status word: its STATUS, none where the word is malformed. -/
def statusOf (d : List Byte) : Option Nat := let w := wordAt d 0; if 4 ≤ d.length ∧ w.field 31 4 = 0 then some (w.field 3 0) else none

/-- Does a reply echo the request's channel and offset? -/
def State.echoes (s : State) (f : Nat) (k : Packet) (w : BulkWait) : Bool :=
  (match (s.flume f).cur with
   | some t => decide (t.d.weirChan = k.fields.chan)
   | none => false) && decide (k.fields.bulkOff = w.offset / 4)

/-- Is it the same request? -/
def BulkWait.same (v w : BulkWait) : Bool := decide (v.tag = w.tag) && decide (v.elem = w.elem) && decide (v.offset = w.offset)

/-- A reply completes its request. -/
def State.bulkDone (s : State) (f : Nat) (w : BulkWait) : State :=
  s.modFlume f (fun x => { x with bulk := x.bulk.filter (fun v => !v.same w) })

/-- A request of element `w.elem` fails: the task aborts (R292, R336). -/
def State.bulkFails (s : State) (f : Nat) (w : BulkWait) (cause : Nat) (inj : Bool) : State :=
  (s.bulkDone f w).flumeAbort f { cause := cause, failed := [w.elem], inj := inj }

/-- Bytes that the far side or memory has taken (R296). -/
def State.countBytes (s : State) (f n : Nat) : State := s.modFlume f (fun x => { x with bytes := x.bytes + BitVec.ofNat 64 n })

/-- The bytes of a read land. -/
def State.landBulk (s : State) (f : Nat) (w : BulkWait) (a : Nat) (d : List Byte) : State :=
  let m := Master.flume f
  let r := s.memWrite m a d
  if r.2 then ((r.1.bulkDone f w).countBytes f d.length).flumeSettle f
  else r.1.bulkFails f w Cause.MEM_UNCORRECTABLE (s.accessInj m a d.length true)

/-- Do two requests write bytes of the same place? -/
def BulkWait.overlaps (w v : BulkWait) : Bool :=
  match w.dst, v.dst with
  | some a, some b => decide (a < b + v.bytes) && decide (b < a + w.bytes)
  | _, _ => false

/-- Is a request before `w` on the same bytes still open (R278)? -/
def Flume.heldBehind (x : Flume) (w : BulkWait) : Bool :=
  (x.bulk.takeWhile (fun v => !v.same w)).any (fun v => w.overlaps v)

/-- Reads whose bytes waited for their turn land, in the order of issue. -/
def State.landHeld (s : State) (f : Nat) : Nat → State
  | 0 => s
  | n + 1 =>
    match (s.flume f).bulk.find? (fun w => w.data.isSome && !(s.flume f).heldBehind w) with
    | none => s
    | some w => State.landHeld (s.landBulk f w (w.dst.getD 0) (w.data.getD [])) f n

/-- The bytes of a read arrive: they land at once, or after the requests before them on the same bytes (R278). -/
def State.bulkData (s : State) (f : Nat) (w : BulkWait) (a : Nat) (d : List Byte) : State :=
  if (s.flume f).heldBehind w then
    s.modFlume f (fun x => { x with bulk := x.bulk.map (fun v => if v.same w then { v with data := some d } else v) })
  else (s.landBulk f w a d).landHeld f (s.flume f).bulk.length

/-- WACK or RDATA: a write is done, the bytes of a read are written, or the task aborts. -/
def State.replyIn (s : State) (p : Nat) (k : Packet) (isRead : Bool) : State :=
  let q := s.bulkOf p k.fields.tag
  let s := (s.freeTag p 2 k.fields.tag).freePacket p k
  match q with
  | none => s
  | some (f, w) =>
    let n := if isRead then 4 + w.bytes else 4
    if statusOf k.payload ≠ some 0 ∨ w.dst.isSome ≠ isRead ∨ k.payload.length ≠ n ∨ !s.echoes f k w then
      (s.bulkFails f w Cause.HOST_ABORT false).landHeld f (s.flume f).bulk.length
    else match w.dst with
      | none => ((s.bulkDone f w).countBytes f w.bytes).flumeSettle f
      | some a => s.bulkData f w a (k.payload.drop 4)

/-- Must the bytes of a reply wait for memory? -/
def State.replyWaits (s : State) (p : Nat) (k : Packet) : Bool :=
  match s.bulkOf p k.fields.tag with
  | some (_, w) => (match w.dst with
    | some a => s.memWaits a w.bytes
    | none => false)
  | none => false

/-- WACK. -/
def execWack (p : PortId) (s : State) : Out := .next (s.onPacket p 2 1 (fun _ => false) (fun _ => []) (fun s k => s.replyIn p k false))
/-- RDATA. -/
def execRdata (p : PortId) (s : State) : Out := .next (s.onPacket p 2 3 (s.replyWaits p) (fun _ => []) (fun s k => s.replyIn p k true))

/-! ## Timeouts (R330, R336) -/

/-- TMO_HOP, times eight for a slow job (R329). -/
def State.hopUs (s : State) (p j : Nat) : Nat := s.fld (Reg.port.TMO_HOP p) 23 0 * (if (s.job j).slow then 8 else 1)

/-- Does record `i` still expect packets of an all-gather or an agreement (R320, R323)? -/
def State.packetsDue (s : State) (i : Nat) (r : CollRec) : Bool :=
  let c := s.prog i
  s.jobRuns r.job &&
    (if r.kind = 2 then
      let g := s.gatherRec r
      c.agStarted && decide (c.agWritten < (g.tiles - g.owned r.pos) * s.gatherPer r.job)
    else decide (r.kind = 4) && decide (r.phase = (s.job r.job).map) && decide (r.ring ≠ 1)
      && (decide (c.agreed < r.tiles - r.owned r.prevPos) || decide (c.agWritten < r.tiles - r.owned r.pos)))

/-- Job of a wait that has expired on the port. -/
def State.hopExpired (s : State) (p : Nat) (w : HopWait) : Option Nat :=
  let x := s.port p
  let since (t j : Nat) : Option Nat := if reachedUs (s.time - t) (s.hopUs p j) then some j else none
  match w with
  | .upstream =>
    (s.adderHeads p).findSome? (fun l =>
      if (s.upstreamOf (s.collRec l.coll).recv l).isNone then since l.since (s.collRec l.coll).job else none)
  | .tack tag => match x.heldOf 0 tag.toNat with
    | some h => since h.since h.pkt.fields.job
    | none => none
  | .tackp tag => match x.heldOf 1 tag.toNat with
    | some h => since h.since h.pkt.fields.job
    | none => none
  | .gather =>
    s.collRecs.findSome? (fun r =>
      if r.2.recv = p ∧ s.packetsDue r.1 r.2 then since (max (s.prog r.1).since (s.job r.2.job).collSince) r.2.job else none)
  | .wack _ => none

/-- The bulk request of a Flume that has waited BULK_TMO for its reply. -/
def State.bulkExpired (s : State) (f : Nat) : Option BulkWait :=
  (s.flume f).bulk.find? (fun w => w.data.isNone && reachedUs (s.time - w.since) (s.fld Reg.global.BULK_TMO 23 0))

/-- A bulk request gets no reply: its tag is free, and the task aborts. -/
def State.bulkTimeout (s : State) (f : Nat) (w : BulkWait) : State :=
  let p := ((s.flume f).cur.map (fun t => t.d.weirPort)).getD 0
  ((s.freeTag p 2 w.tag).bulkFails f w Cause.HOST_ABORT false).landHeld f (s.flume f).bulk.length

/-- HOP_TIMEOUT (R330): ROSTER, and the step aborts; a gateway's reply has BULK_TMO (R336). -/
def execHopTimeout (p : PortId) (w : HopWait) (s : State) : Out :=
  .next (match w with
    | .wack tag =>
      (match s.bulkOf p tag.toNat with
       | some (f, _) => (match s.bulkExpired f with
         | some x => s.bulkTimeout f x
         | none => s)
       | none => s)
    | _ =>
      match s.hopExpired p w with
      | none => s
      | some j =>
        let s := s.stepFault Cause.ROSTER (some j) (some ⟨.port p, Cause.ROSTER, Cls.contained, false, Master.none, 0⟩)
        match w with
        | .tackp tag => s.freeTag p 1 tag.toNat
        | _ => s)

/-- BULK_TMO (R336). -/
def execBulkTmo (f : FlumeId) (s : State) : Out :=
  .next (match s.bulkExpired f with
    | some w => s.bulkTimeout f w
    | none => s)

end Sys2Proof.Machine
end

