-- ==== Sys2Proof/Machine/Flume.lean ====
section
/-! DEFINITION. The Flumes (chapter 9): arming, descriptor fetch, elements, signals, descriptor boundaries, host translation,
restarts, tags. -/

namespace Sys2Proof.Machine

/-! ## Slots (R279, R280) -/

/-- Is the Flume out of service (R213, R396)? -/
def State.flumeGone (s : State) (f : Nat) : Bool := (s.flume f).retired || (s.flume f).offApplied

/-- ARM_ADDR. -/
def State.armAddr (s : State) (f : Nat) : Nat := s.pair (Reg.flume.ARM_ADDR_LO f) (Reg.flume.ARM_ADDR_HI f)

/-- Is the next slot full, or reserved for a linked descriptor? -/
def Flume.nextFull (x : Flume) : Bool :=
  x.nxt.isSome || (match x.fetch with
    | some y => decide (y.who = .link)
    | none => false)

/-- Is an arming's or a restart's fetch under way? -/
def Flume.fetchHolds (x : Flume) : Bool :=
  match x.fetch with
  | some y => decide (y.who ≠ .link)
  | none => false

/-- An ARM GO judged against the Flume's state (R280): refused, or its fetch begun. -/
def State.judgeArm (s : State) (w : Writer) (f : Nat) : State :=
  let x := s.flume f
  if s.flumeGone f then s.refuse (.flume f) w Cause.UNIT_ABSENT
  else if x.state = .aborted ∨ x.state = .activeNext ∨ x.nextFull then s.refuse (.flume f) w Cause.REARM_BUSY
  else s.modFlume f (fun x => { x with fetch := some ⟨s.armAddr f, .arm w⟩ })

/-- ARM GO (R279): held while an arming's fetch is checked. -/
def State.armBy (s : State) (w : Writer) (f : Nat) : State :=
  let x := s.flume f
  if x.fetchHolds || !x.heldArms.isEmpty then s.modFlume f (fun x => { x with heldArms := x.heldArms ++ [w] })
  else s.judgeArm w f

/-- ARM_GO. -/
def execArmGo (w : Writer) (f : FlumeId) (s : State) : Out :=
  .next (s.put w (Reg.flume.ARM_CTRL f) (fun s => s.armBy w f))

/-- The held ARM GOs, in order, until one begins a fetch. One that meets a linked descriptor's reserved slot is refused at once. -/
def State.judgeHeld (s : State) (f : Nat) : Nat → State
  | 0 => s
  | n + 1 =>
    match (s.flume f).heldArms with
    | [] => s
    | w :: rest =>
      if (s.flume f).fetchHolds then s
      else State.judgeHeld ((s.modFlume f (fun x => { x with heldArms := rest })).judgeArm w f) f n

/-- A new task: nothing issued, nothing signalled. -/
def newTask (addr : Nat) (d : FDesc) (tokBase suppress : Nat) : Task :=
  { addr := addr, d := d, issued := 0, prefixDone := 0, ackedAhead := [], gates := 0, signalled := 0, suppress := suppress,
    tokBase := tokBase, recv := suppress, tailSent := false }

/-- The descriptor becomes current (R280): PRELOAD added, its LINK to be fetched. None where PRELOAD would overflow TOKIN
(R484). -/
def State.makeCurrent (s : State) (f addr : Nat) (d : FDesc) (suppress : Nat) : Option State :=
  if 65535 < s.tokin f + d.preload then none
  else
    let base := s.tokin f
    let s := s.setFld (Reg.flume.TOKIN f) 15 0 (base + d.preload)
    some (s.modFlume f (fun x => { x with
      cur := some (newTask addr d base suppress), curAddr := addr, nxt := none, heldNext := false, gated := false, hgWait := false
      state := .active, stepAborted := false, abortCause := none, resumeDue := false, nextAt := none
      fetch := d.link.map (fun a => ⟨a, .link⟩) }))

/-! ## Descriptor fetches (R276) -/

/-- A descriptor as fetched: its check, or an uncorrectable line or held parity error, reported by the Flume. -/
def State.readDesc (s : State) (f a : Nat) : State × Except (Nat × Bool) FDesc :=
  let m := Master.flume f
  let q := s.stackSluice a m false
  let inj := Reg.flume.page f + Reg.header.ERR_INJECT
  if q.2 then (q.1, .error (Cause.MEM_UNCORRECTABLE, true))
  else
    let r := q.1.memScan a 256
    match r.2 with
    | some l =>
      (r.1.report (.flume f) { cause := Cause.MEM_UNCORRECTABLE, cls := Cls.contained, master := m, detail := f, inj := s.lineInjected l },
        .error (Cause.MEM_UNCORRECTABLE, true))
    | none =>
      if r.1.regBit inj 0 then
        ((r.1.setFld inj 0 0 0).report (.flume f)
          { cause := Cause.MEM_UNCORRECTABLE, cls := Cls.contained, master := m, detail := f, inj := true },
          .error (Cause.MEM_UNCORRECTABLE, true))
      else (r.1, fCheck r.1 (leNat (r.1.rawBytes a 256)))

/-- The refusal of a failed descriptor: reported against the master, which freezes where the cause asks it. Uncorrectable data
has been reported against the Flume. -/
def State.refuseDesc (s : State) (f m cause : Nat) (fr : Bool) : State :=
  let s := if cause = Cause.MEM_UNCORRECTABLE then s
    else s.report (.flume f) { cause := cause, cls := Cls.contained, master := m, detail := f }
  if fr then s.freeze m cause else s

/-- The descriptors a restart names: the current one, and the next; those of the step snapshot (R294), or of the aborted task. With no
current descriptor a recorded next one takes its place. -/
def State.restartSlots (s : State) (f : Nat) (snap : Bool) : Option Nat × Option Nat :=
  let addr (lo hi : Nat) : Option Nat :=
    if s.regBit hi 31 then some ((s.reg lo).toNat + 2 ^ 32 * s.fld hi 9 0) else none
  let x := s.flume f
  let cur := if snap then addr (Reg.flume.SNAP_CUR_LO f) (Reg.flume.SNAP_CUR_HI f) else x.cur.map (fun t => t.addr)
  let nxt := if snap then addr (Reg.flume.SNAP_NEXT_LO f) (Reg.flume.SNAP_NEXT_HI f) else (x.nxt.map (fun n => n.1)).or x.nextAt
  match cur with
  | some a => (some a, nxt)
  | none => (nxt, none)

/-- The task of a restart: from the step snapshot with its TOKIN, which already has a current descriptor's PRELOAD, or from element 0
with the signals to be suppressed (R293). None where PRELOAD would overflow TOKIN (R484). -/
def State.restartTask (s : State) (f a : Nat) (d : FDesc) (snap : Bool) : Option State :=
  let tok := s.fld (Reg.flume.SNAP_TOKIN f) 15 0
  if snap then
    if s.regBit (Reg.flume.SNAP_CUR_HI f) 31 then
      ((s.setFld (Reg.flume.TOKIN f) 15 0 (tok - d.preload)).makeCurrent f a d 0).map (fun t => t.setFld (Reg.flume.TOKIN f) 15 0 tok)
    else (s.setFld (Reg.flume.TOKIN f) 15 0 tok).makeCurrent f a d 0
  else s.makeCurrent f a d (if (s.flume f).cur.isSome then s.fld (Reg.flume.FAULT_INFO f) 31 16 else 0)

/-- The restarted task with its next descriptor. -/
def State.restartWith (s : State) (m f a : Nat) (d : FDesc) (nd : Option (Nat × FDesc)) (snap : Bool) : State :=
  match s.restartTask f a d snap with
  | none => s.refuseDesc f m Cause.FORMAT true
  | some t =>
    if nd.isSome then t.modFlume f (fun x => { x with nxt := nd, state := .activeNext, fetch := none }) else t

/-- A restart of an ABORTED Flume (R280, R293, R294): both descriptors re-fetched and checked, then the task begins at element 0.
A snapshot with no descriptor leaves the Flume IDLE. -/
def State.restartFlume (s : State) (m f : Nat) (snap : Bool) : State :=
  let slots := s.restartSlots f snap
  let s := s.modFlume f (fun x => { x with fetch := none })
  match slots.1 with
  | none =>
    ((s.setFld (Reg.flume.TOKIN f) 15 0 (if snap then s.fld (Reg.flume.SNAP_TOKIN f) 15 0 else s.tokin f)).modFlume f (fun x => { x with
      state := .idle, cur := none, nxt := none, nextAt := none, heldNext := false, stepAborted := false
      resumeDue := false })).flumeOffIfDue f
  | some a =>
    let r := s.readDesc f a
    match r.2, slots.2 with
    | .error e, _ => r.1.refuseDesc f m e.1 e.2
    | .ok d, none => r.1.restartWith m f a d none snap
    | .ok d, some b =>
      let q := r.1.readDesc f b
      match q.2 with
      | .error e => q.1.refuseDesc f m e.1 e.2
      | .ok d2 => q.1.restartWith m f a d (some (b, d2)) snap

/-- May a Flume fetch, issue and signal (R295)? -/
def State.flumeRuns (s : State) (f : Nat) : Bool := !s.frozen (Master.flume f) && s.up && !s.fatal && !s.flumeGone f

/-- A fetched descriptor fills its slot or is refused (R276, R280). -/
def State.fetched (s : State) (f : Nat) (y : Fetch) : State :=
  match y.who with
  | .restart w snap => s.restartFlume w.id f snap
  | .arm w =>
    let r := s.readDesc f y.addr
    let s := r.1.modFlume f (fun x => { x with fetch := none })
    (match r.2 with
     | .error e => s.refuseDesc f w.id e.1 e.2
     | .ok d =>
       if (s.flume f).state = .idle then
         (match s.makeCurrent f y.addr d 0 with
          | some t => t
          | none => s.refuseDesc f w.id Cause.FORMAT true)
       else s.modFlume f (fun x => { x with nxt := some (y.addr, d), state := .activeNext }))
  | .link =>
    let r := s.readDesc f y.addr
    let s := r.1.modFlume f (fun x => { x with fetch := none })
    (match r.2 with
     | .error e => s.refuseDesc f (Master.flume f) e.1 e.2
     | .ok d => s.modFlume f (fun x => { x with nxt := some (y.addr, d), state := .activeNext }))

/-- The descriptors that a fetch reads: a restart reads both slots (R280). -/
def State.fetchAddrs (s : State) (f : Nat) (y : Fetch) : List Nat :=
  match y.who with
  | .restart _ snap => (s.restartSlots f snap).1.toList ++ (s.restartSlots f snap).2.toList
  | _ => [y.addr]

/-- The pools that its reads draw on (R285). -/
def State.fetchNeeds (s : State) (f : Nat) (y : Fetch) : List (TagPool × Nat) :=
  (s.fetchAddrs f y).foldl (fun l a => mergeNeeds l (memPools a 256)) []

/-- Does a waiting commit keep the Flume from starting a descriptor (R474)? -/
def State.commitHoldsFlume (s : State) (f : Nat) : Bool := decide (s.tally.state = .committing) && s.touchesFlume f

/-- Would a fetch make a descriptor current? -/
def State.fetchStarts (s : State) (f : Nat) (y : Fetch) : Bool :=
  match y.who with
  | .restart _ _ => true
  | .arm _ => decide ((s.flume f).state = .idle)
  | .link => false

/-- Must a fetch wait: for memory, or for a commit? -/
def State.fetchWaits (s : State) (f : Nat) (y : Fetch) : Bool :=
  (s.fetchAddrs f y).any (fun a => s.memWaits a 256) || (s.commitHoldsFlume f && s.fetchStarts f y)

/-- The fetch is made and checked, then the ARM GOs held meanwhile are judged. -/
def State.fetchNow (s : State) (f : Nat) (y : Fetch) : State :=
  let s := s.fetched f y
  s.judgeHeld f ((s.flume f).heldArms.length)

/-- A fetch whose sluice entry fails (R399): an uncorrectable access of the Flume, whose descriptor is refused as R276 has it. -/
def State.fetchLost (s : State) (f : Nat) (y : Fetch) : State :=
  let s := s.report (.flume f) { cause := Cause.MEM_UNCORRECTABLE, cls := Cls.contained, master := Master.flume f, detail := f }
  let s := s.modFlume f (fun x => { x with fetch := none })
  let m := match y.who with
    | .arm w => w.id
    | .restart w _ => w.id
    | .link => Master.flume f
  let s := s.refuseDesc f m Cause.MEM_UNCORRECTABLE true
  s.judgeHeld f ((s.flume f).heldArms.length)

/-- The fetch as its sluice entry comes through (R46). -/
def State.fetchBy (s : State) (f : Nat) (y : Fetch) (p : SluiceParity) : State :=
  let q := s.sluiceParity p (Master.flume f)
  if q.2 then q.1.fetchLost f y else if q.1.fatal then q.1 else q.1.fetchNow f y

/-- DESCRIPTOR_FETCH: once the Flume holds a tag (R279). With no fetch under way it judges the ARM GOs still held. -/
def execDescriptorFetch : Sluiced FlumeId → State → Out
  | ⟨f, p⟩, s =>
  .next (match (s.flume f).fetch with
    | some y =>
      if !s.flumeRuns f ∨ s.fetchWaits f y then s
      else s.withPools (Master.flume f) (s.fetchNeeds f y) (fun s => s.fetchBy f y p)
    | none => s.judgeHeld f ((s.flume f).heldArms.length))

/-! ## Elements (R274 to R278, R282, R288) -/

/-- Bytes of a space that an endpoint may use; none where the spec names no end. -/
def spaceEnd (sp : Nat) : Nat :=
  match sp with
  | 0 => 2 ^ 64
  | 1 => 2 ^ 42
  | 2 => 4194304
  | 3 => 33554432
  | _ => 2 ^ 41

/-- Does an element's endpoint lie in its space (R277)? -/
def inSpace (sp : Nat) (a : Int) (n : Nat) : Bool := decide (0 ≤ a) && decide (a + n ≤ (spaceEnd sp : Nat))

/-- Is the gate of the next element open or taken (R282)? -/
def State.gateOpen (s : State) (f : Nat) (t : Task) : Bool :=
  t.d.gateEvery = 0 || decide (t.issued / t.d.gateEvery < t.gates) || decide (t.d.gateN ≤ s.tokin f)
/-- Must the gate be taken now? -/
def Task.gateDue (t : Task) : Bool := decide (t.d.gateEvery ≠ 0) && decide (t.gates ≤ t.issued / t.d.gateEvery)

/-- Does the Headgate let an element through (R288)? -/
def State.headgateOpen (s : State) (f : Nat) (n : Nat) : Bool :=
  decide (s.fld (Reg.flume.HG_RATE f) 23 0 = 0) || decide (10000 * n ≤ (s.flume f).bucket)

/-- 4 KiB pages that `n` bytes at `va` touch. -/
def pagesOf (va n : Nat) : List Nat := (List.range ((va + n - 1) / 4096 - va / 4096 + 1)).map (fun i => 4096 * (va / 4096 + i))

/-- The first page of a host access that has no translation yet. -/
def State.needsPage (s : State) (va n : Nat) : Option Nat :=
  if s.host.atsEn then (pagesOf va n).find? (fun p => !s.host.atc.contains (BitVec.ofNat 64 p)) else none

/-- Must an element wait for a stack at T3 or for a slice? -/
def State.elemWaits (s : State) (d : FDesc) (x : FElem) : Bool :=
  let side (sp : Nat) (a : Nat) : Bool :=
    match sp with
    | 1 => s.memWaits a d.elem
    | 2 => (d.engines x).any (fun e => s.sliceHoldsCrib e a d.elem)
    | 3 => s.sliceHoldsLoft d.barn a d.elem
    | _ => false
  side d.srcSpace x.src.toNat || side d.dstSpace x.dst.toNat

/-- The sluices between a Flume and the host: PCIe's, and the bridge where the Flume sits on East (R271). The state, and what the
access is lost to: with true, to injection. -/
def State.hostSluice (s : State) (f : Nat) (wr : Bool) (p : SluiceParity) : State × Option Bool :=
  let m := Master.flume f
  let armed := s.regBit (Reg.global.page + Reg.header.ERR_INJECT) 0
  let q := s.pcieSluice p m
  if s.entryLost q then (q.1, some armed)
  else
    let r := q.1.bridgeSluice m false wr
    (r.1, if q.1.entryLost r then some true else none)

/-- The bytes of an element's source, or whether injection is why there are none. `host` is what the host returned. The entry whose
parity came with the command is of the first sluice on the element's way (R46, R399). -/
def State.elemRead (s : State) (f : Nat) (d : FDesc) (x : FElem) (host : List Byte) (u : Upset) (p : SluiceParity) :
    State × Except Bool (List Byte) :=
  let m := Master.flume f
  let a := x.src.toNat
  match d.srcSpace with
  | 0 =>
    let q := s.hostSluice f false p
    (q.1, match q.2 with
      | some i => .error i
      | none => .ok host)
  | 1 =>
    let q := s.sluiceParity p m
    if s.entryLost q then (q.1, .error false)
    else
      let r := q.1.memRead m a d.elem
      (r.1, match r.2 with
        | some bs => .ok bs
        | none => .error (s.accessInj m a d.elem false))
  | 2 =>
    let e := (d.engines x).headD 0
    let q := s.bridgeSluice m (decide (32 ≤ e)) false p
    if s.entryLost q then (q.1, .error (s.bridgeArmed m (decide (32 ≤ e)) false))
    else
      let r := q.1.cribUpset e u (s.cribBadAt e a d.elem)
      (r.1, if r.2.isEmpty then .ok (s.crib.rdBytes (cribKey e a) d.elem) else .error (badInjected r.2))
  | _ =>
    let q := s.bridgeSluice m (decide (4 ≤ d.barn)) false p
    (q.1, if s.entryLost q then .error (s.bridgeArmed m (decide (4 ≤ d.barn)) false) else .ok (s.loft.rdBytes (loftKey d.barn a) d.elem))

/-- A host write cut at multiples of 512 bytes, the largest payload (R437; assumption 109). -/
def payloadCuts : Nat → Nat → List Byte → List (Nat × List Byte)
  | 0, _, _ => []
  | n + 1, a, bs =>
    if bs.isEmpty then []
    else
      let k := 512 - a % 512
      (a, bs.take k) :: payloadCuts n (a + k) (bs.drop k)

/-- The bytes written at the destination; where it did not take them, whether for injection. -/
def State.elemWrite (s : State) (f : Nat) (d : FDesc) (x : FElem) (bs : List Byte) (p : SluiceParity) : State × Option Bool :=
  let m := Master.flume f
  let a := x.dst.toNat
  match d.dstSpace with
  | 0 =>
    let q := s.hostSluice f true p
    match q.2 with
    | some i => (q.1, some i)
    | none =>
      let w := (payloadCuts (bs.length / 512 + 2) a bs).map (fun x => HostMsg.memWrite (BitVec.ofNat 64 x.1) x.2)
      ({ q.1 with host := { q.1.host with out := q.1.host.out ++ w } }, none)
  | 1 =>
    let q := s.sluiceParity p m
    if s.entryLost q then (q.1, some false)
    else
      let r := q.1.memWrite m a bs
      (r.1, if r.2 then none else some (s.accessInj m a d.elem true))
  | 2 =>
    let q := s.bridgeSluice m (decide (4 ≤ d.barn)) true p
    if s.entryLost q then (q.1, some (s.bridgeArmed m (decide (4 ≤ d.barn)) true))
    else ((d.engines x).foldl (fun s e => s.cribWrite e a bs []) q.1, none)
  | _ =>
    let q := s.bridgeSluice m (decide (4 ≤ d.barn)) true p
    if s.entryLost q then (q.1, some (s.bridgeArmed m (decide (4 ≤ d.barn)) true))
    else ({ q.1 with loft := q.1.loft.wrBytes (loftKey d.barn a) bs }, none)

/-- Bytes that an element writes: a broadcast writes each engine (R275). -/
def FDesc.written (d : FDesc) (x : FElem) : Nat := if d.dstSpace = 2 then d.elem * (d.engines x).length else d.elem

/-- Parts of a bulk element, cut at 256-byte boundaries of the object (R336): object offset and length. -/
def bulkParts : Nat → Nat → Nat → List (Nat × Nat)
  | 0, _, _ => []
  | n + 1, o, len =>
    if len = 0 then []
    else
      let k := min len (256 - o % 256)
      (o, k) :: bulkParts n (o + k) (len - k)

/-- One bulk request (R307, R336): queued on its port, its tag held until the reply. The gateway's node ID has no place in a
descriptor: DST is a free value (assumption 3). -/
def State.bulkRequest (s : State) (f : Nat) (d : FDesc) (w : BulkTodo) : State :=
  let q := s.fresh
  let t := q.2.newTag d.weirPort
  let kind := if w.dst.isSome then 2 else 0
  let k := mkPacket 2 kind 0 false s.moduleId (q.1.toNat % 2 ^ 14) 0 t.1 (d.weirChan + 2 ^ 12 * (w.offset / 4))
    (if w.dst.isSome then leBytes 4 w.len else w.data)
  let s := t.2.queuePacket d.weirPort k
  let s := s.modPort d.weirPort (fun x => { x with held := x.held ++ [⟨t.1, k, s.time⟩] })
  s.modFlume f (fun x => { x with bulk := x.bulk ++ [⟨t.1, w.elem, w.offset, w.dst, w.len, s.time, none⟩] })

/-- The bulk requests of the issued element go out, one for each tag; the Flume waits for a tag for the rest (R286). -/
def State.pumpBulk (s : State) (f : Nat) (d : FDesc) : Nat → State
  | 0 => s
  | n + 1 =>
    let y : TagPool := .weir (Fin.ofNat 24 d.weirPort)
    let m := Master.flume f
    match (s.flume f).bulkTodo with
    | [] => s
    | w :: ws =>
      if s.tagsFor m y = 0 then (s.joinPool m y).modFlume f (fun x => { x with waitTag := true })
      else State.pumpBulk (((s.useGrants m y 1).modFlume f (fun x => { x with bulkTodo := ws })).bulkRequest f d w) f d n

/-- What an element needs of the host, Pond and Lake pools: the requests of its read, and those of its write to device memory
(R285; host writes hold no tag). -/
def FDesc.needs (d : FDesc) (x : FElem) : List (TagPool × Nat) :=
  mergeNeeds
    (match d.srcSpace with
     | 0 => [(.host, cutCount 512 x.src.toNat d.elem)]
     | 1 => memPools x.src.toNat d.elem
     | _ => [])
    (if d.dstSpace = 1 then memPools x.dst.toNat d.elem else [])

/-- The element takes its tags: as many of each pool as it has requests, or as there are; they come back when it completes (assumption
82). -/
def State.takeTags (s : State) (f e : Nat) (l : List (TagPool × Nat)) : State :=
  let m := Master.flume f
  l.foldl (fun s y =>
    let k := min y.2 (s.tagsFor m y.1)
    (s.useGrants m y.1 k).modFlume f (fun x => { x with tags := x.tags ++ [⟨y.1, e, k⟩] })) s

/-- An element is issued: its gate and its bucket paid. -/
def State.issued (s : State) (f : Nat) (t : Task) (n : Nat) : State :=
  let rate := s.fld (Reg.flume.HG_RATE f) 23 0
  s.modFlume f (fun x => { x with
    cur := some { t with issued := t.issued + 1 }, hgWait := false, gated := false
    bucket := if rate = 0 then x.bucket else x.bucket - 10000 * n })

/-- Element `e` is lost on its way from `s` to `t`: its task aborts, where the machine has not turned Fatal. -/
def State.elementLost (s t : State) (f e : Nat) (inj : Bool) : State :=
  if t.fatal && !s.fatal then t else t.flumeAbort f { cause := Cause.MEM_UNCORRECTABLE, failed := [e], inj := inj }

/-- The parts of a bulk element become its requests: to a port of the other die they cross the bridge (R271, R272). -/
def State.bulkElement (s : State) (f : Nat) (d : FDesc) (e : Nat) (parts : List BulkTodo) (p : SluiceParity) : State :=
  let m := Master.flume f
  let east := decide (12 ≤ d.weirPort)
  let wr := decide (d.dstSpace = 4)
  let q := s.bridgeSluice m east wr p
  if s.entryLost q then s.elementLost q.1 f e (s.bridgeArmed m east wr)
  else (q.1.modFlume f (fun x => { x with bulkTodo := parts })).pumpBulk f d (parts.length + 1)

/-- The transfer of an issued element `e`. -/
def State.transfer (s : State) (f : Nat) (d : FDesc) (e : Nat) (x : FElem) (host : List Byte) (u : Upset) (p : SluiceParity) : State :=
  if d.srcSpace = 4 then
    s.bulkElement f d e ((bulkParts 300 x.src.toNat d.elem).map (fun q =>
      ⟨e, q.1, q.2, some (x.dst.toNat + (q.1 - x.src.toNat)), []⟩)) p
  else
    let r := s.elemRead f d x host u p
    match r.2 with
    | .error i => s.elementLost r.1 f e i
    | .ok bs =>
      if d.dstSpace = 4 then
        r.1.bulkElement f d e ((bulkParts 300 x.dst.toNat d.elem).map (fun q =>
          ⟨e, q.1, q.2, none, (bs.drop (q.1 - x.dst.toNat)).take q.2⟩)) p
      else
        let w := r.1.elemWrite f d x bs p
        match w.2 with
        | none => w.1.modFlume f (fun y => { y with bytes := y.bytes + BitVec.ofNat 64 (d.written x) })
        | some i => r.1.elementLost w.1 f e i

/-- The element issues: it moves at once, but for a host read with no data, whose data is to come (R290; assumption 110). -/
def State.moveElement (s : State) (f : Nat) (t : Task) (x : FElem) (host : List Byte) (u : Upset) (p : SluiceParity) : State :=
  let s := s.issued f t t.d.elem
  if t.d.srcSpace = 0 ∧ host.length ≠ t.d.elem then s.modFlume f (fun y => { y with hostDue := y.hostDue ++ [t.issued] })
  else s.transfer f t.d t.issued x host u p

/-- The data of the oldest host read that is out comes back. -/
def State.hostReturn (s : State) (f : Nat) (t : Task) (host : List Byte) (u : Upset) (p : SluiceParity) : State :=
  match (s.flume f).hostDue with
  | [] => s
  | e :: rest =>
    if host.length ≠ t.d.elem then s
    else
      let s := s.modFlume f (fun x => { x with hostDue := rest })
      (s.transfer f t.d e (t.d.element e) host u p).flumeSettle f

/-- May requests of an issued bulk element go out, an abort under way or not (R292 step 2)? -/
def State.pumping (s : State) (f : Nat) : Bool :=
  let x := s.flume f
  s.flumeRuns f && (decide (x.state = .active) || decide (x.state = .activeNext)) && !x.waitTag && !s.sliceHoldsFlume f

/-- Does the Flume issue: running, a task current, nothing waited for, no abort under way? -/
def State.issuing (s : State) (f : Nat) : Bool :=
  let x := s.flume f
  s.flumeRuns f && (decide (x.state = .active) || decide (x.state = .activeNext)) && x.abortHeld.isNone && x.waitVa.isNone
    && !x.waitTag && !s.sliceHoldsFlume f

/-- The task whose next element may be looked at. -/
def State.issueTask (s : State) (f : Nat) : Option Task :=
  match (s.flume f).cur with
  | some t => if s.issuing f && decide (t.issued < t.d.count) then some t else none
  | none => none

/-- FLUME_ELEMENT_ISSUE's effect: the gate, the Headgate, the address, translation and tags, then the element. -/
def State.issueElement (s : State) (f : Nat) (t : Task) (host : List Byte) (u : Upset) (p : SluiceParity) : State :=
  let d := t.d
  let x := d.element t.issued
  if !s.gateOpen f t then s.modFlume f (fun x => { x with gated := true })
  else
    let due := t.gateDue
    let t' := if due then { t with gates := t.gates + 1 } else t
    let s := if due then (s.setFld (Reg.flume.TOKIN f) 15 0 (s.tokin f - d.gateN)).modFlume f (fun x => { x with cur := some t', gated := false })
      else s
    if !s.headgateOpen f d.elem then s.modFlume f (fun x => { x with hgWait := true })
    else if !inSpace d.srcSpace x.src d.elem ∨ !inSpace d.dstSpace x.dst d.elem then
      s.flumeAbort f { cause := Cause.FORMAT }
    else match (d.hostAddr x).bind (fun va => s.needsPage va d.elem) with
      | some p =>
        { s.modFlume f (fun x => { x with waitVa := some (BitVec.ofNat 64 p) }) with
          host := { s.host with out := s.host.out ++ [.translationRequest f (BitVec.ofNat 64 p)] } }
      | none =>
        if s.elemWaits d x then s
        else if d.srcSpace = 0 ∧ host ≠ [] ∧ host.length ≠ d.elem then s
        else if !s.tagsReady (Master.flume f) (d.needs x) then
          (s.joinPools (Master.flume f) (d.needs x)).modFlume f (fun x => { x with waitTag := true })
        else (s.takeTags f t.issued (d.needs x)).moveElement f t' x host u p

/-- FLUME_ELEMENT_ISSUE. Requests of the last issued element that still wait for tags go first. Host data that comes with the command is
that of the oldest host read that is out, else that of the element that issues now; a host read issued without data waits for it (assumption
110). Data of another length than the element is no such event. -/
def execFlumeElementIssue : FlumeId → Coded (Sluiced (List Byte)) → State → Out
  | f, ⟨⟨hostData, sluice⟩, u⟩, s =>
  .next (match (s.flume f).cur with
    | none => s
    | some t =>
      if !(s.flume f).bulkTodo.isEmpty then
        if s.pumping f then s.pumpBulk f t.d ((s.flume f).bulkTodo.length + 1) else s
      else if hostData ≠ [] ∧ (s.flume f).hostDue ≠ [] then s.hostReturn f t hostData u sluice
      else match s.issueTask f with
        | some t => s.issueElement f t hostData u sluice
        | none => s)

/-- The completed prefix, grown over the elements acknowledged ahead of it. -/
def growPrefix : Nat → Nat → List Nat → Nat × List Nat
  | 0, p, l => (p, l)
  | n + 1, p, l => if l.contains p then growPrefix n (p + 1) (l.filter (fun e => decide (e ≠ p))) else (p, l)

/-- An element's writes are acknowledged: DONE grows (R278, R296), its tags come back, an invalidation may complete. -/
def State.elementDone (s : State) (f : Nat) (t : Task) (e : Nat) : State :=
  let l := t.ackedAhead ++ [e]
  let g := growPrefix (l.length + 1) t.prefixDone l
  (s.modFlume f (fun x => { x with
    cur := some { t with prefixDone := g.1, ackedAhead := g.2 }
    tags := x.tags.filter (fun h => decide (h.elem ≠ e)) })).finishInval

/-- Is element `e` issued whole, not yet complete, its host read back and every one of its bulk requests answered? -/
def Flume.mayComplete (x : Flume) (t : Task) (e : Nat) : Bool :=
  decide (x.state ≠ .aborted) && decide (e < t.issued) && decide (t.prefixDone ≤ e) && !t.ackedAhead.contains e
    && !x.hostDue.contains e
    && !x.bulk.any (fun w => decide (w.elem = e)) && !x.bulkTodo.any (fun w => decide (w.elem = e))
    && !(match x.abortHeld with
      | some a => a.failed.contains e
      | none => false)

/-- FLUME_ELEMENT_COMPLETE. -/
def execFlumeElementComplete (f : FlumeId) (e : Nat) (s : State) : Out :=
  .next (match (s.flume f).cur with
    | none => s
    | some t => if (s.flume f).mayComplete t e then s.elementDone f t e else s)

/-- FLUME_GROUP_SIGNAL (R284): the next group's signal, in group order. -/
def execFlumeGroupSignal (f : FlumeId) (s : State) : Out :=
  .next (match (s.flume f).cur with
    | none => s
    | some t =>
      if s.flumeRuns f && decide ((s.flume f).state ≠ .aborted) && (s.flume f).abortHeld.isNone && decide (t.signalled < t.groupsDone) then
        s.flumeSignal f t
      else s)

/-! ## The descriptor boundary (R280, R281) -/

/-- The tail signal, once (R284). -/
def State.tailSignal (s : State) (f : Nat) (t : Task) : State :=
  if t.tailSent then s
  else
    let s := if t.d.sigTail && decide (t.d.sigEvery ≠ 0) && decide (t.d.count % t.d.sigEvery ≠ 0) then s.flumeSignal f t else s
    s.modFlume f (fun x => { x with cur := x.cur.map (fun t => { t with tailSent := true }) })

/-- The next descriptor becomes current; a PRELOAD that would overflow freezes the Flume with it held (R484). -/
def State.nextCurrent (s : State) (f : Nat) : State :=
  match (s.flume f).nxt with
  | none => s.modFlume f (fun x => { x with state := .idle, cur := none })
  | some n =>
    match s.makeCurrent f n.1 n.2 0 with
    | some t => t
    | none =>
      let s := s.modFlume f (fun x => { x with cur := none, heldNext := true, state := .activeNext })
      (s.report (.flume f) { cause := Cause.FORMAT, cls := Cls.contained, master := Master.flume f, detail := f }).freeze
        (Master.flume f) Cause.FORMAT

/-- After the shadows: the epoch, a removal that waits, the next descriptor (R210, R213, R281). -/
def State.leaveBoundary (s : State) (f : Nat) : State :=
  let stale := s.tally.live && s.epochDiffers (.flume f)
  let s := if stale then s.epochStale (.flume f) (Master.flume f) else s
  if (s.flume f).offline ∧ !(s.flume f).offApplied then s.flumeOffNow f
  else if stale then s.modFlume f (fun x => { x with state := .idle, cur := none, nxt := none, fetch := none })
  else s.nextCurrent f

/-- The task whose every element and group is done, with no linked descriptor on its way. -/
def State.endedTask (s : State) (f : Nat) : Option Task :=
  let x := s.flume f
  match x.cur with
  | some t =>
    if (decide (x.state = .active) || decide (x.state = .activeNext)) && x.abortHeld.isNone && decide (t.prefixDone = t.d.count)
        && decide (t.groupsDone ≤ t.signalled) && !(x.nextFull && x.nxt.isNone) then some t else none
  | none => none

/-- DESCRIPTOR_BOUNDARY. A commit that touches the Flume holds it here (R474); a removal that applies here waits for a slice of the
Flume (R409). -/
def execDescriptorBoundary (f : FlumeId) (s : State) : Out :=
  .next (
    if !s.flumeRuns f ∨ (s.commitHoldsFlume f ∧ (s.flume f).heldNext) then s
    else if (s.flume f).offline ∧ !(s.flume f).offApplied ∧ s.sliceInUnit 4 f then s
    else if (s.flume f).heldNext then s.nextCurrent f
    else match s.endedTask f with
      | none => s
      | some t =>
        let s := s.tailSignal f t
        if s.frozen (Master.flume f) then s
        else if s.commitHoldsFlume f then s.modFlume f (fun x => { x with boundaryHeld := true })
        else s.leaveBoundary f)

/-! ## RESTART (R280) -/

/-- RESTART with GO: acts only in ABORTED. A frozen Flume, or one whose descriptors wait for memory, for a tag or for a commit, fetches
later. -/
def State.restartBy (s : State) (w : Writer) (f : Nat) (snap : Bool) : State :=
  if (s.flume f).state ≠ .aborted then s
  else
    let y : Fetch := ⟨(s.flume f).curAddr, .restart w snap⟩
    let t := s.modFlume f (fun x => { x with fetch := some y })
    if s.flumeRuns f && !s.fetchWaits f y then
      t.withPools (Master.flume f) (s.fetchNeeds f y) (fun s => s.restartFlume w.id f snap)
    else t

/-! ## Host addresses (R290, R291, R293, R438) -/

/-- The cache takes a translation: 2,048 entries, the oldest leaves. -/
def atcAdd (l : List (BitVec 64)) (p : BitVec 64) : List (BitVec 64) :=
  let l := l.filter (fun q => decide (q ≠ p)) ++ [p]
  l.drop (l.length - 2048)

/-- A translation that gives no access: a page request where PRI is enabled, else HOST_ABORT (R291). -/
def State.noAccess (s : State) (f : Nat) (va : BitVec 64) : State :=
  if s.host.priEn then
    let g := s.host.prgi
    let s := { s with host := { s.host with prgi := (g + 1) % 512, out := s.host.out ++ [HostMsg.pageRequest f va g] } }
    let s := (s.setFld (Reg.flume.FAULT_INFO f) 8 0 g).modFlume f (fun x => { x with pageReq := some g })
    s.flumeAbort f { cause := Cause.PAGE_FAULT, va := some va.toNat }
  else s.flumeAbort f { cause := Cause.HOST_ABORT, va := some va.toNat }

/-- TRANSLATION_COMPLETE. -/
def execTranslationComplete (f : FlumeId) (granted : Bool) (s : State) : Out :=
  .next (match (s.flume f).waitVa with
    | none => s
    | some va =>
      let s := s.modFlume f (fun x => { x with waitVa := none })
      if granted then { s with host := { s.host with atc := atcAdd s.host.atc va } } else s.noAccess f va)

/-- FP-B restarts the task from element 0 and, where the restart took, sends the waiting barn on (R202, R293); one that has yet to halt at
its boundary it sends on from there. An FP-B that does not run owes it. -/
def State.pageGranted (s : State) (f : Nat) : State :=
  let x := s.flume f
  if x.state ≠ .aborted ∨ x.abortCause ≠ some Cause.PAGE_FAULT ∨ x.stepAborted then s.modFlume f (fun x => { x with resumeDue := false })
  else if !s.fpbRuns then s.modFlume f (fun x => { x with resumeDue := true })
  else
    let s := (s.modFlume f (fun x => { x with resumeDue := false })).restartBy (.fp 0) f false
    let took := decide ((s.flume f).state ≠ .aborted) || (s.flume f).fetch.isSome
    match x.cur with
    | some t => if took && s.fpbRuns && decide (t.d.sigKind = 0) && decide (t.d.sigEvery ≠ 0) then
        (s.oweGo t.d.sigTarget).segGo t.d.sigTarget
      else s
    | none => s

/-- The GO that FP-B owes a barn, made where the barn waits for it and is not frozen (R202). -/
def State.payGo (s : State) (b : Nat) : State :=
  if (s.barn b).restartDue ∧ s.fpbRuns then s.segGo b else s

/-- What FP-B owes, and what commits held back. -/
def State.pageDuties (s : State) : State :=
  let s := if s.fpbRuns then (List.range 32).foldl (fun s f => if (s.flume f).resumeDue then s.pageGranted f else s) s else s
  (List.range 8).foldl (fun s b => (s.payGo b).heldGo b) s

/-- PAGE_REQUEST_RESPONSE (R293). -/
def execPageRequestResponse (f : FlumeId) (a : PageAnswer) (s : State) : Out :=
  .next (match (s.flume f).pageReq with
    | none => s
    | some _ =>
      let s := s.modFlume f (fun x => { x with pageReq := none })
      match a with
      | .success => s.pageGranted f
      | _ =>
        let s := s.modFlume f (fun x => { x with abortCause := x.abortCause.map (fun _ => Cause.HOST_ABORT) })
        s.report (.flume f) { cause := Cause.HOST_ABORT, cls := Cls.contained, master := Master.flume f, detail := f })

/-- INVALIDATION_REQUEST (R290): the translations leave the cache; it completes once no request uses the range. -/
def execInvalidationRequest (va : BitVec 64) (bytes : Nat) (s : State) : Out :=
  .next ({ s with host := { s.host with
      atc := s.host.atc.filter (fun p => !(decide (p.toNat < va.toNat + bytes) && decide (va.toNat < p.toNat + 4096)))
      inval := s.host.inval ++ [(va, bytes)] } } : State).finishInval

/-- The oldest host read that is out fails: HOST_ABORT with its element's page (R290, R438). -/
def State.hostFails (s : State) (f : Nat) : State :=
  match (s.flume f).hostDue, (s.flume f).cur with
  | e :: rest, some t =>
    (s.modFlume f (fun x => { x with hostDue := rest })).flumeAbort f
      { cause := Cause.HOST_ABORT, va := some (4096 * ((t.d.element e).src.toNat / 4096)), failed := [e] }
  | _, _ => s

/-- A host read fails: the oldest that is out, or else one that issues as any other does and fails at once. -/
def State.hostError (s : State) (f : Nat) : State :=
  if (s.flume f).hostDue ≠ [] then s.hostFails f
  else match s.issueTask f with
    | none => s
    | some t =>
      let r := s.issueElement f t [] .clean .good
      if t.d.srcSpace = 0 ∧ (s.flume f).bulkTodo.isEmpty ∧ (r.flume f).hostDue ≠ [] then r.hostFails f else s

/-- HOST_ERROR_COMPLETION. -/
def execHostErrorCompletion (f : FlumeId) (s : State) : Out := .next (s.hostError f)
/-- COMPLETION_TIMEOUT. -/
def execCompletionTimeout (f : FlumeId) (s : State) : Out := .next (s.hostError f)

/-! ## Clearing a Flume, and the RESTART writes (R280) -/

/-- RESTART with CLEAR: both slots discarded. -/
def State.clearFlume (s : State) (f : Nat) : State :=
  if (s.flume f).state ≠ .aborted then s
  else (s.modFlume f (fun x => { x with
    state := .idle, cur := none, nxt := none, fetch := none, nextAt := none, heldNext := false, stepAborted := false
    resumeDue := false })).flumeOffIfDue f

/-- A write of RESTART. -/
def State.restartWrite (s : State) (w : Writer) (f : Nat) (v : Word) : State :=
  if bit v.toNat 2 then s.clearFlume f
  else if bit v.toNat 0 then s.restartBy w f (bit v.toNat 1)
  else s

/-- RESTART_FROM_TASK. -/
def execRestartFromTask (w : Writer) (f : FlumeId) (s : State) : Out :=
  .next (s.put w (Reg.flume.RESTART f) (fun s => s.restartBy w f false))
/-- RESTART_FROM_SNAPSHOT. -/
def execRestartFromSnapshot (w : Writer) (f : FlumeId) (s : State) : Out :=
  .next (s.put w (Reg.flume.RESTART f) (fun s => s.restartBy w f true))
/-- RESTART_CLEAR. -/
def execRestartClear (w : Writer) (f : FlumeId) (s : State) : Out :=
  .next (s.put w (Reg.flume.RESTART f) (fun s => s.clearFlume f))

/-! ## Tags (R286) -/

/-- TAG_GRANT: one tag to the next waiting master. A Flume that waited for one may try again. -/
def execTagGrant (pool : TagPool) (s : State) : Out :=
  .next (
    let s' := s.grantTag pool
    match (s.poolState pool).pick with
    | some m =>
      if 0x10 ≤ m ∧ m < 0x30 ∧ (s'.poolState pool).granted.contains m then s'.modFlume (m - 0x10) (fun x => { x with waitTag := false }) else s'
    | none => s')

end Sys2Proof.Machine
end

