-- ==== Sys2Proof/Machine/StepBoundary.lean ====
section
/-! DEFINITION. The step boundary (R351), the checkpoint record (R353), and the restart of an aborted step (R207, R225, R332,
R333). -/

namespace Sys2Proof.Machine

/-! ## Restart snapshots as words (R355) -/

/-- Word `i` of a snapshot. -/
def Snap.word (n : Snap) (i : Nat) : Word :=
  let loop (k : Nat) (f : Loop → Nat) : Word := match (n.loops ++ n.above)[k]? with
    | some l => BitVec.ofNat 32 (f l)
    | none => 0
  if i = 0 then
    BitVec.ofNat 32 (n.pc.toNat + 2 ^ 13 * b2n n.ccBank + 2 ^ 14 * b2n n.active + 2 ^ 15 * b2n n.swapped + 2 ^ 16 * n.loops.length)
  else if i < 7 then loop (i - 1) (fun l => l.ctr.toNat)
  else if i < 13 then loop (i - 7) (fun l => l.cntM1.toNat)
  else if i < 19 then loop (i - 13) (fun l => l.after.toNat)
  else if i < 23 then BitVec.ofNat 32 (n.wcfg0.toNat / 2 ^ (32 * (i - 19)))
  else if i < 27 then BitVec.ofNat 32 (n.wcfg1.toNat / 2 ^ (32 * (i - 23)))
  else 0

/-! ## When the boundary runs (R351 step 1) -/

/-- Has a job of the port reached its step safe point (R321): every live record complete, the gather phase included, no abort? -/
def State.jobSafe (s : State) (j : Nat) : Bool :=
  !(s.job j).aborted && !(s.job j).late && (!s.hasVerdict j || decide ((s.job j).phase = 3))
    && (s.liveRecs j).all (fun x => s.recDone x.1 x.2)

/-- Is barn `b` IDLE, or held at a WAIT on the STEP_SIG counter with the counter below its N? -/
def State.barnAtSig (s : State) (b : Nat) : Bool :=
  let t := s.fld Reg.global.STEP_SIG 3 0
  decide ((s.barn b).phase = .idle) || (match (s.barn b).waiting with
    | some w => decide (w.1 = t) && decide (s.token b t < w.2)
    | none => false)

/-- Bit `b` of STEP_SIG.BARNS. -/
def State.sigBarn (s : State) (b : Nat) : Bool := s.regBit Reg.global.STEP_SIG (20 + b)

/-- Do the conditions of step 1 name a block? -/
def State.stepNamed (s : State) : Bool :=
  (List.range 16).any (fun k => decide (s.mkCount k ≠ 0)) || (List.range 16).any s.jobLive || (List.range 8).any s.sigBarn

/-- Does a step abort stand? -/
def State.stepStands (s : State) : Bool :=
  s.liveJobs.any (fun j => (s.job j).aborted) || (List.range 8).any (fun b => (s.barn b).stepAborted)

/-- The conditions of step 1. -/
def State.stepReady (s : State) : Bool :=
  s.stepNamed && !s.stepStands && !s.stepSlice && (List.range 16).all s.mkSafe && s.liveJobs.all s.jobSafe
    && (List.range 8).all (fun b => !s.sigBarn b || s.barnAtSig b)

/-! ## Steps 2 and 3 -/

/-- An engine's step fields (R144); a retired engine's stand as they are (R92). -/
def State.clearStepFields (s : State) : State :=
  let s := (List.range 64).foldl (fun s e =>
    if (s.engine e).retired then s else (s.setReg (Reg.engine.SC_NF_STEP e) 0).setReg (Reg.engine.SC_FIRST e) 0) s
  { s with engines := s.engines.map (fun x => { x with drainNo := 0, stepOver := x.retired }) }

/-- A descriptor address with VALID in a SNAP register pair. -/
def State.setSnapAddr (s : State) (lo hi : Nat) (a : Option Nat) : State :=
  match a with
  | some a => (s.setReg lo (BitVec.ofNat 32 a)).setReg hi (BitVec.ofNat 32 (a / 2 ^ 32 % 1024 + 2 ^ 31))
  | none => (s.setReg lo 0).setReg hi 0

/-- Is a task in flight: started, and its descriptor boundary not reached, which its last acknowledgement reaches (R280)? -/
def Task.inFlight (t : Task) : Bool := decide (t.prefixDone ≠ t.d.count)

/-- The Flume's step snapshot (R294). -/
def State.flumeSnap (s : State) (f : Nat) : State :=
  let x := s.flume f
  let cur := if x.state = .idle then x.armFetch else x.cur.map (fun t => t.addr)
  let s := s.setSnapAddr (Reg.flume.SNAP_CUR_LO f) (Reg.flume.SNAP_CUR_HI f) cur
  let s := s.setSnapAddr (Reg.flume.SNAP_NEXT_LO f) (Reg.flume.SNAP_NEXT_HI f) x.nextAddr
  let s := s.setFld (Reg.flume.SNAP_TOKIN f) 15 0 (s.tokin f)
  s.modFlume f (fun x => { x with mid := decide (x.state ≠ .idle ∧ x.state ≠ .aborted) && (match x.cur with
    | some t => t.inFlight
    | none => false) })

/-- Each Weir port checks its EPOCH while an admission is live (R210). -/
def State.portEpochs (s : State) : State :=
  (List.range 24).foldl (fun s p =>
    if s.tally.live && s.epochDiffers (.port p) then s.epochStale (.port p) Master.none else s) s

/-- A stack's generations at the boundary (R256): a checkpoint step misses where its table was skipped, or ran in place in double mode.
MK_CTRL is that of the step that ends (assumption 107). -/
def State.genFlip (s : State) (k : Nat) : State :=
  let x := s.stack k
  let missed := s.mkCkpt k && (x.mkSkipped || (x.mkComplete && !s.mkSingle k && !x.mkAlt))
  let s := if missed then s.setFld (Reg.mkv.GEN_STATUS k) 3 3 1 else s
  if x.mkAlt && x.mkComplete then
    (s.setFld (Reg.mkv.GEN_STATUS k) 0 0 (1 - s.fld (Reg.mkv.GEN_STATUS k) 0 0)).setFld (Reg.mkv.GEN_STATUS k) 1 1 1
  else s

/-- Steps 1 and 2, the units taken off line (R213), and what step 3 makes of the step that ends: its generations. -/
def State.stepOpen (s : State) : State :=
  let s := { s with tally := { s.tally with ckptStep := (List.range 16).any s.mkCkpt } }
  let s := (List.range 32).foldl (fun s f => s.flumeSnap f) s.clearStepFields
  let s := (List.range 16).foldl (fun s k => s.genFlip k) s.portEpochs.applyStepOffline
  { s with tally := { s.tally with stepHeld := true } }

/-- The detector's pending update (R359). -/
def State.applyLsd (s : State) : State :=
  match s.lsdPending with
  | some (m, v, n) =>
    { ((s.setReg Reg.global.LSD_MEAN m).setReg Reg.global.LSD_VAR v).setFld Reg.global.LSD_COUNT 15 0 n with lsdPending := none }
  | none => s

/-! ## Steps 4 to 6 -/

/-- A job at the start of a step: COMPUTE, map of slot 0 (R348). -/
def Job.begin (x : Job) (m now : Nat) : Job :=
  { x with phase := 0, map := m, nf := false, spike := false, ready := false, passed := false, heldVerdict := none,
           heldResume := none, aborted := false, late := false, causeHeld := false, lateCause := none, lateReports := [],
           slow := false, collSince := now }

/-- Step 4: the step counter, the jobs, the verdicts, VERIFY_EN (R357). -/
def State.stepFour (s : State) : State :=
  let s := if s.tally.stepCommitted then s else (s.setReg Reg.spring.STEP (s.reg Reg.spring.STEP + 1)).seedStored 8 false
  let s := (List.range 16).foldl (fun s j => (s.modJob j (fun x => x.begin (s.pmSlot j 0) s.time)).setReg (Reg.global.VERDICT j) 0) s
  let s := (List.range 16).foldl (fun s k => (s.setFld (Reg.mkv.VERDICT k) 1 0 0).mkAwait k) s
  s.setFld Reg.global.LSD_CTRL 1 1 0

/-- A port at the start of a step. -/
def Port.beginStep (x : Port) : Port :=
  { x with slowTx := false, slowRx := false, discardReported := false, promoReported := false }

/-- The ports' part: the state of the step that ended, and the REDUCE shares (R304). -/
def State.stepPorts (s : State) : State :=
  let s := { s with ports := s.ports.map Port.beginStep, coll := [], chanSent := [], chanLanded := [] }
  (List.range 24).foldl (fun s p => s.setCredits p false) s

/-- Step 6: the tokens of STEP_SIG. -/
def State.stepTokensOf (s : State) (b : Nat) : State :=
  let t := s.fld Reg.global.STEP_SIG 3 0
  if s.sigBarn b then (s.addToken b t (s.fld Reg.global.STEP_SIG 19 4)).getD s else s

/-- A barn's step snapshots (R205, R206). -/
def State.barnSnap (s : State) (b : Nat) : State :=
  let toks := (List.range 16).map (fun t => BitVec.ofNat 16 (s.token b t))
  s.modBarn b (fun x => { x with
    stepSnap := if x.phase ≠ .idle ∨ x.pendingRestart then some x.snap else none, stepTokens := toks })

/-- Barn `b`'s part of the checkpoint record. -/
def State.ckptBarn (s : State) (b : Nat) : List Byte :=
  let n := (s.barn b).stepSnap.getD (s.barn b).snap
  (List.range 32).flatMap (fun i => leBytes 4 (n.word i).toNat) ++ (s.barn b).stepTokens.flatMap (fun t => leBytes 2 t.toNat)
    ++ List.replicate 32 0

/-- Flume `f`'s part: addresses with VALID in bit 63, SNAP_TOKIN, MID. -/
def State.ckptFlume (s : State) (f : Nat) : List Byte :=
  leBytes 4 (s.reg (Reg.flume.SNAP_CUR_LO f)).toNat ++ leBytes 4 (s.reg (Reg.flume.SNAP_CUR_HI f)).toNat
    ++ leBytes 4 (s.reg (Reg.flume.SNAP_NEXT_LO f)).toNat ++ leBytes 4 (s.reg (Reg.flume.SNAP_NEXT_HI f)).toNat
    ++ leBytes 4 (s.fld (Reg.flume.SNAP_TOKIN f) 15 0) ++ leBytes 4 (b2n (s.flume f).mid) ++ List.replicate 8 0

/-- The checkpoint record (R353). -/
def State.ckptRecord (s : State) : List Byte :=
  leBytes 4 1 ++ leBytes 4 (s.reg Reg.spring.STEP).toNat
    ++ (List.range 8).flatMap (fun i => leBytes 4 (s.reg (Reg.spring.SEED0 + 4 * i)).toNat)
    ++ (List.range 16).flatMap (fun j => leBytes 2 (s.roster j))
    ++ leBytes 4 (s.reg Reg.global.LSD_MEAN).toNat ++ leBytes 4 (s.reg Reg.global.LSD_VAR).toNat
    ++ leBytes 4 (s.fld Reg.global.LSD_COUNT 15 0) ++ leBytes 4 (s.fld Reg.global.AVAIL_EPOCH 15 0)
    ++ List.replicate 40 0 ++ (List.range 8).flatMap s.ckptBarn ++ (List.range 32).flatMap s.ckptFlume
    ++ List.replicate 1408 0

/-- Address of the checkpoint record, where the step that ends writes one. -/
def State.ckptAddr (s : State) : Option Nat :=
  if s.tally.ckptStep && s.regBit Reg.global.CKPT_REC_HI 31 then
    some ((s.reg Reg.global.CKPT_REC_LO).toNat + 2 ^ 32 * s.fld Reg.global.CKPT_REC_HI 9 0)
  else none

/-- Must the boundary wait for the memory of its record? -/
def State.ckptWaits (s : State) : Bool := match s.ckptAddr with
  | some a => s.memWaits a 4096
  | none => false

/-- The rest of step 3, and steps 4 to 6. The record describes the start of the next step, so it is made last. -/
def State.stepClose (s : State) : State :=
  let ckpt := s.ckptAddr
  let s := s.applyLsd.stepFour.stepPorts
  let s := (List.range 8).foldl (fun s b => s.stepTokensOf b) s
  let s := (List.range 8).foldl (fun s b => (s.barnSnap b).releaseSpan b 0) s
  let s := match ckpt with
    | some a => (s.memWrite Master.none a s.ckptRecord).1
    | none => s
  { s with tally := { s.tally with stepHeld := false, stepCommitted := false, ckptStep := false } }

/-- Is a commit waiting for this boundary or held at it (R474)? -/
def State.commitAtStep (s : State) : Bool := decide (s.tally.state = .committing) && s.touches s.waitsForStep

/-- The boundary: steps 1 to 3, the shadows in the same boundary where every other block stands safe, then steps 4 to 6. -/
def State.stepRun (s : State) : State :=
  let s := if s.tally.stepHeld then s else s.stepOpen
  let s := if s.commitAtStep && s.allSafe then s.applyAll else s
  if s.commitAtStep ∨ s.ckptWaits then s else s.stepClose

/-- STEP_BOUNDARY. -/
def execStepBoundary (s : State) : Out :=
  .next (if s.up && !s.fatal && (s.tally.stepHeld || s.stepReady) then s.stepRun else s)

/-! ## Restart of an aborted step -/

/-- Has the job's cause cleared at this module (R207)? A stack that stays in self-refresh has not cooled; a bad seed has not
been written again. -/
def State.causeClear (s : State) (j : Nat) : Bool :=
  let x := s.job j
  !x.causeHeld || (if x.cause = Cause.STACK_HOT then (List.range 16).all (fun k => !s.selfRefresh k)
    else if x.cause = Cause.MEM_UNCORRECTABLE then s.springBad.isEmpty else true)

/-- May the job's RESUME go on? After a late fault every Mill must stand at its step safe point too (R333 step 4). -/
def State.resumeReady (s : State) (j : Nat) : Bool := s.causeClear j && (!(s.job j).late || (List.range 16).all s.mkSafe)

/-- An all-gather record starts again from its first tile (R333 step 5). -/
def State.regather (s : State) (j : Nat) : State :=
  let s := ((s.liveRecs j).filter (fun x => decide (x.2.kind = 2))).foldl (fun s x =>
    s.modProg x.1 (fun c => { c with agStarted := false, agToSend := 0, agTacked := 0, agWritten := 0 })) s
  if (s.job j).phase = 3 then s.startGathers j else s

/-- Lap 1 of RESUME at the job (R332, R333, R348). A slow member stays one until the step boundary (R329). -/
def State.endAbort (s : State) (j : Nat) : State :=
  let x := s.job j
  if x.aborted then s.modJob j (fun x => { x.begin (s.pmSlot j 0) s.time with slow := x.slow })
  else if x.late then (s.modJob j (fun x => { x with late := false, heldResume := none, causeHeld := false })).regather j
  else s

/-- A barn restarts from its step snapshot; one that had begun no segment of the step stays IDLE (R207, R225). -/
def State.barnResume (s : State) (b : Nat) : State :=
  if !(s.barn b).stepAborted then s
  else if (s.barn b).pendingRestart && !(s.barn b).offApplied then s.segGo b
  else (s.modBarn b (fun x => { x with stepAborted := false })).releaseVoided b

/-- A Flume restarts from its step snapshot, as FP-B's write of GO with FROM = 1 does. -/
def State.flumeResume (s : State) (f : Nat) : State :=
  if (s.flume f).stepAborted then (s.restartBy (.fp 0) f true).modFlume f (fun x => { x with stepAborted := false }) else s

/-- FP-B restarts the step once no job of the module stands in step abort. With no job, the causes of R207 are looked at
themselves. -/
def State.restartAll (s : State) : State :=
  if !s.fpbRuns ∨ s.liveJobs.any (fun j => (s.job j).aborted)
      ∨ (List.range 32).any (fun f => (s.flume f).stepAborted && (s.flume f).abortHeld.isSome)
      ∨ (s.liveJobs.isEmpty ∧ ((List.range 16).any s.selfRefresh ∨ !s.springBad.isEmpty)) then s
  else (List.range 32).foldl (fun s f => s.flumeResume f) ((List.range 8).foldl (fun s b => s.barnResume b) s)

/-- Is a RESUME of the job's present roster epoch (R332, R334)? -/
def State.ofEpoch (s : State) (j : Nat) (v : BitVec 64) : Bool := decide (bits v.toNat 24 9 = s.roster j)

/-- A job's RESUME where its cause has cleared: position 0 sends lap 0, once for each roster epoch (R334), another passes on what it
holds; a job with no verdict ring restarts alone. -/
def State.resumeJob (s : State) (j : Nat) : State :=
  let x := s.job j
  if !(x.aborted || x.late) || !s.resumeReady j then s
  else match s.verdictRec j with
    | none => s.endAbort j
    | some (_, r) =>
      if r.ring = 1 then s.endAbort j
      else if r.pos = 0 then
        if x.heldResume.any (s.ofEpoch j) then s
        else
          let v := symResume j 0 (s.roster j) s.step10
          (s.modJob j (fun x => { x with heldResume := some v })).sendSym r.send v
      else match x.heldResume with
        | some v =>
          if s.ofEpoch j v then (s.modJob j (fun x => { x with heldResume := none })).sendSym r.send v else s
        | none => s

/-- STEP_RESTART (R207, R332): causes that have cleared let RESUME go on, and FP-B restarts what may restart. -/
def execStepRestart (s : State) : Out :=
  .next (if s.up && !s.fatal && s.fpbRuns then ((List.range 16).foldl (fun s j => s.resumeJob j) s).restartAll else s)

/-- A member holds RESUME of lap 0; another roster epoch is reported (R332 steps 2 and 3). -/
def State.holdResume (s : State) (p j : Nat) (v : BitVec 64) : State :=
  let s := s.modJob j (fun x => { x with heldResume := some v })
  if s.ofEpoch j v then s.resumeJob j
  else s.report (.port p) { cause := Cause.ROSTER, cls := Cls.contained }

/-- A RESUME symbol. -/
def State.resumeIn (s : State) (p : Nat) (v : BitVec 64) : State :=
  let j := symJob v
  let x := s.job j
  match s.verdictRec j with
  | none => s
  | some (_, r) =>
    if !(x.aborted || x.late) then s
    else if bit v.toNat 8 then
      let s := if r.nextPos = 0 then s else s.sendSym r.send v
      (s.endAbort j).restartAll
    else if r.pos = 0 then
      if !s.ofEpoch j v then s.report (.port p) { cause := Cause.ROSTER, cls := Cls.contained }
      else if x.heldResume.any (s.ofEpoch j) then ((s.sendSym r.send (symResume j 1 (s.roster j) s.step10)).endAbort j).restartAll else s
    else s.holdResume p j v

/-- RESUME. -/
def execResume (p : PortId) (s : State) : Out := .next (s.onStepSymbol p Sym.RESUME 34 25 (fun s v => s.resumeIn p v))

end Sys2Proof.Machine
end

