-- ==== Sys2Proof/Machine/SelfTest.lean ====
section
/-! DEFINITION. Self-test slices as they are requested, end, overrun or are stopped (R229, R394, R407 to R410). -/

namespace Sys2Proof.Machine

/-- A write of SLICE_REQ by a master with the right: CODE and INST are stored, GO makes the request. -/
def State.sliceWrite (s : State) (w : Writer) (v : Word) : State :=
  let s := s.setReg Reg.gleaner.SLICE_REQ (v &&& 0x0FFFFFFF#32)
  if bit v.toNat 31 then s.sliceRequest w ⟨v.field 3 0, v.field 27 4⟩ else s

/-- A write of SLICE_REQ (R394): the management port, FP-B and FP-L only. -/
def State.sliceReqBy (s : State) (w : Writer) (v : Word) : State :=
  if w.isIn [.mgmt, .fp 0, .fp 2] then s.sliceWrite w v else s.refuse .gleaner w Cause.STATE_DISAGREE

/-- SLICE_REQ_GO. -/
def execSliceReqGo (w : Writer) (v : Word) (s : State) : Out :=
  .next (s.put w Reg.gleaner.SLICE_REQ (fun s => s.sliceReqBy w v))

/-! ## What waited for a slice (R228, R409) -/

/-- An act that took a region away goes on; where another slice tests the region it waits again. -/
def State.regionAct (s : State) : RegionAct → State
  | .engine e cause detail inj => s.retireEngine e cause detail inj
  | .channel k t detail inj => s.retireChannel k t detail inj
  | .port p => s.retirePort p
  | .flume f cause => s.retireFlume f cause
  | .remove ty u => s.removeOrWait ty u

/-- Every act that waits, in its order. -/
def State.runActs (s : State) : State :=
  let l := s.regionActs
  l.foldl (fun s a => s.regionAct a) ({ s with regionActs := [] } : State)

/-- Every Granary write that waits, in its order. -/
def State.runGranWaits (s : State) : State :=
  let l := s.granWaits
  l.foldl (fun s g => s.granLand g) ({ s with granWaits := [] } : State)

/-- The abort of the home barn that waited for the slice (R409). -/
def State.heldAbort (s : State) (b : Nat) : State :=
  match (s.barn b).abortHeld with
  | none => s
  | some step =>
    if s.sliceAt b then s
    else
      let s := if step then s.barnStepAbort b else if (s.barn b).phase = .idle then s else s.segAbortNow b
      s.modBarn b (fun x => { x with abortHeld := none })

/-- The swap of an IDLE barn that waited for the slice. -/
def State.heldSwap (s : State) (b : Nat) : State :=
  if (s.barn b).swapPending ∧ (s.barn b).phase = .idle ∧ !s.swapHeld b ∧ s.tally.state ≠ .committing then
    ((s.idleSwap b).idleTake b).endIfDone
  else s

/-- A slice leaves with RESULT: its window closes, the region is back in service, and what waited for it goes on. -/
def State.leaveSlice (s : State) (x : SliceRun) (result : Nat) : State :=
  let r := x.req
  let s := { s with sliceRun := s.sliceRun.filter (fun y => decide (y.req ≠ r)) }
  let s := if s.sliceShown r then s.setSliceStatus r result else s
  let s := if x.inWindow then s.closeFallow r.home else s
  (((s.runGranWaits).heldAbort r.home).heldSwap r.home).runActs

/-! ## Outcomes (R410) -/

/-- Every engine of a barn retires. -/
def State.retireBarn (s : State) (b : Nat) : State :=
  (List.range 8).foldl (fun s i =>
    if s.present (8 * b + i) then s.retireEngine (8 * b + i) Cause.MEM_UNCORRECTABLE else s) s

/-- Failing rows of a stack's slice: reported once, with the first of them, each to be spared at once (R263). -/
def State.sliceRows (s : State) (k : Nat) (t : Tier) (rows : List (BitVec 42)) : State :=
  let rows := rows.filter (fun a => decide (addrStack a.toNat = k) && decide (addrTier a.toNat = t))
  let detail := match rows with
    | a :: _ => memDetail (a.toNat / 64)
    | [] => chanDetail t
  let s := s.report (.ctl k) { cause := Cause.MEM_UNCORRECTABLE, cls := Cls.contained, detail := detail }
  rows.foldl (fun s a => s.queueSpare k (a.toNat / 64) true) s

/-- What a failed slice takes out of service (R410). -/
def State.sliceFailed (s : State) (r : SliceReq) (rows : List (BitVec 42)) : State :=
  let e := bits r.inst 5 0
  let k := bits r.inst 3 0
  match r.code with
  | 0x1 | 0x2 => s.retireEngine e Cause.CHECKSUM_ROWCOL (s.reg (Reg.engine.CHK_LAST e)).toNat
  | 0x3 | 0x4 => s.retireEngine e Cause.MEM_UNCORRECTABLE
  | 0x5 | 0x6 => s.retireBarn (bits r.inst 2 0)
  | 0x7 => s.sliceRows k .pond rows
  | 0x8 => s.sliceRows k .lake rows
  | 0xA => (s.retireChannel k .pond (chanDetail .pond) false).retireChannel k .lake (chanDetail .lake) false
  | 0xB => s.retirePort (bits r.inst 4 0)
  | _ => s.retireFlume (bits r.inst 4 0) Cause.FORMAT

/-- A passed slice: a LINK pass clears SUSPECT. -/
def State.slicePassed (s : State) (r : SliceReq) : State :=
  if r.code = 0xB then s.modPort r.inst (fun x => { x with suspect := false }) else s

/-- The slice that runs for a request. -/
def State.sliceOf (s : State) (r : SliceReq) : Option SliceRun := s.sliceRun.find? (fun x => decide (x.req = r))

/-- Has the slice overrun its budget, counted from the reference clock (R49, R407)? -/
def State.sliceLate (s : State) (x : SliceRun) : Bool := reachedUs (s.time - x.since) (sliceBudget x.req.code)

/-- Did what the link received leave a LINK slice passed: no flit failed its CRC, FEC_CE grew by fewer than 64 (R407)? -/
def State.linkClean (s : State) (x : SliceRun) : Bool :=
  decide (x.req.code ≠ 0xB) || (!x.crcFailed && decide (s.fld (Reg.port.FEC_CE x.req.inst) 31 0 < x.fecMark + 64))

/-- The budget expires (R231, R410): the slice is stopped, its region restored and in service still. -/
def State.overrunSlice (s : State) (x : SliceRun) : State :=
  (s.leaveSlice x 5).report .gleaner { cause := Cause.WATCHDOG, cls := Cls.corrected }

/-- The slice ends with what its tests found, a LINK slice with what its link received too. -/
def State.endSlice (s : State) (x : SliceRun) (res : SliceResult) : State :=
  match res with
  | .passed =>
    if s.linkClean x then (s.leaveSlice x 3).slicePassed x.req else (s.leaveSlice x 4).sliceFailed x.req []
  | .failed rows => (s.leaveSlice x 4).sliceFailed x.req rows

/-- The running slice that a command names, while the units run. -/
def State.sliceNamed (s : State) (code : BitVec 4) (inst : BitVec 24) : Option SliceRun :=
  if s.up then s.sliceOf ⟨code.toNat, inst.toNat⟩ else none

/-- SLICE_END (R410). One past its budget has overrun. -/
def execSliceEnd : SliceName → SliceResult → State → Out
  | ⟨code, inst⟩, res, s =>
  .next (match s.sliceNamed code inst with
    | none => s
    | some x => if s.sliceLate x then s.overrunSlice x else s.endSlice x res)

/-- SLICE_OVERRUN (R231, R410). -/
def execSliceOverrun : SliceName → State → Out
  | ⟨code, inst⟩, s =>
  .next (match s.sliceNamed code inst with
    | none => s
    | some x => if s.sliceLate x then s.overrunSlice x else s)

/-- A stack that reaches T3 stops its slice, restored, not to be repeated (R409). -/
def State.stopStackSlice (s : State) (k : Nat) : State :=
  match s.sliceRun.find? (fun x => (decide (x.req.code = 0x7) || decide (x.req.code = 0x8) || decide (x.req.code = 0xA))
      && decide (bits x.req.inst 3 0 = k)) with
  | some x => s.leaveSlice x 7
  | none => s

end Sys2Proof.Machine
end

