-- ==== Sys2Proof/Machine/Flags.lean ====
section
/-! DEFINITION. What each register reads as (R15, R463, R464): status fields and counts are computed from the parts of the
machine they show, every other register holds its stored word. -/

namespace Sys2Proof.Machine

/-- A word from fields given as (value, lowest bit). -/
def wordOf (l : List (Nat × Nat)) : Word := BitVec.ofNat 32 (l.foldl (fun n x => n + x.1 * 2 ^ x.2) 0)

/-- A count that a field of `n` bits shows at most. -/
def sat (n v : Nat) : Nat := if v < 2 ^ n then v else 2 ^ n - 1

/-- A bit map of `n` flags. -/
def bitMap (n : Nat) (f : Nat → Bool) : Nat := (List.range n).foldl (fun m i => m + 2 ^ i * b2n (f i)) 0

/-! ## The header (R446, R464) -/

/-- Is the unit of a page retired (R396)? A stack's pages show it once both channels are. -/
def State.unitRetired (s : State) : Page → Bool
  | .engine e => (s.engine e).retired
  | .flume f => (s.flume f).retired
  | .ctl k => (s.stack k).pondRetired || (s.stack k).lakeRetired
  | .mad k | .mkv k | .rep k => (s.stack k).pondRetired && (s.stack k).lakeRetired
  | .port p => (s.port p).retired
  | _ => false

/-- Is it taken off line (R212)? -/
def State.unitOfflined (s : State) : Page → Bool
  | .engine e => (s.engine e).offline || (s.barn (e / 8)).offline
  | .barn b => (s.barn b).offline
  | .flume f => (s.flume f).offline
  | .ctl k => (s.stack k).pondOffline || (s.stack k).lakeOffline
  | .mad k | .mkv k | .rep k => (s.stack k).pondOffline && (s.stack k).lakeOffline
  | .port p => (s.port p).offline
  | _ => false

/-- Does the block of a page stand at its Tally safe point (R473)? -/
def State.pageSafe (s : State) : Page → Bool
  | .barn b => (s.barn b).atSafePoint
  | .engine e => (s.barn (e / 8)).atSafePoint
  | .flume f => (s.flume f).atSafePoint
  | pg => !s.waitsForStep pg || s.tally.stepHeld

/-- VERSION (R446). -/
def State.versionReg (s : State) : Word :=
  wordOf [(1, 0), (s.host.reqMaj % 16, 8), (s.host.accMaj % 16, 12)]

/-- A header register of a page. -/
def State.headerView (s : State) (pg : Page) (o : Nat) : Option Word :=
  let st (a : Nat) : Word := s.reg (pg.base + a)
  if o = Reg.header.ID then some (wordOf [(1, 0), (1, 8), (pg.instanceNo, 16), (pg.typeCode, 24)])
  else if o = Reg.header.VERSION then some s.versionReg
  else if o = Reg.header.CAPS then
    some (wordOf [(1, 0), (b2n pg.isMaster, 4), (b2n (pg.table.any (fun d => decide (d.rws ≠ 0))), 5),
      (b2n (pg.table.any (fun d => decide (d.rwl ≠ 0))), 6), (b2n (decide (pg.injectMask ≠ 0)), 7)])
  else if o = Reg.header.STATUS then
    some (wordOf [(b2n (s.unitRetired pg), 0), (b2n (s.unitOfflined pg), 1),
      (b2n (pg.isMaster && bit (st Reg.header.FREEZE).toNat 0), 2), (b2n (decide ((st Reg.header.ERR_STATUS).field 7 0 ≠ 0)), 3)])
  else if o = Reg.header.TALLY then
    let sh := s.touches (fun q => decide (q.base = pg.base))
    let cm := sh && decide (s.tally.state = .committing)
    some (wordOf [(b2n sh, 0), (b2n (cm && !s.pageSafe pg), 1), (b2n (cm && s.pageSafe pg), 2), ((st Reg.header.TALLY).field 31 16, 16)])
  else none

/-! ## Device global, Gleaner, Tally -/

/-- START_STATUS with PHASE, the step in progress, and LOCKED (R434, R436). -/
def State.startStatus (s : State) : Word :=
  ((s.reg Reg.global.START_STATUS).setBits 3 0 (if s.starting then s.module.startStep else 0)).setBits 7 7 (b2n s.module.locked)

/-- The CRC-32 over the fuse map (R478). -/
def State.fuseMap (s : State) : Word := crc32 (leBytes 8 s.fuses.present.toNat)

/-- Engines counted by a test. -/
def countEngines (f : Nat → Bool) : Nat := ((List.range 64).filter f).length

/-- Jobs `8 q + k` of PM_STATEq (R361). -/
def State.pmState (s : State) (q : Nat) : Word :=
  wordOf ((List.range 8).map (fun k => ((s.job (8 * q + k)).phase % 4 + 4 * ((s.job (8 * q + k)).map % 4), 4 * k)))

def State.globalView (s : State) (a : Nat) : Option Word :=
  let z := s.fuses
  if a = Reg.global.PART then some (wordOf [(z.part.toNat, 0), (z.grade % 16, 16), (1, 20), (z.stepping.toNat, 24)])
  else if a = Reg.global.SERIAL_LO then some (BitVec.ofNat 32 z.serial.toNat)
  else if a = Reg.global.SERIAL_HI then some (BitVec.ofNat 32 (z.serial.toNat / 2 ^ 32))
  else if a = Reg.global.FUSE_MAP then some s.fuseMap
  else if a = Reg.global.ENG_PRESENT_LO then some (BitVec.ofNat 32 z.present.toNat)
  else if a = Reg.global.ENG_PRESENT_HI then some (BitVec.ofNat 32 (z.present.toNat / 2 ^ 32))
  else if a = Reg.global.ENG_COUNT then
    some (wordOf [(countEngines s.present, 0),
      (countEngines (fun e => s.present e && !(s.engine e).retired && !s.unitOfflined (.engine e)), 8)])
  else if a = Reg.global.FLOOR_BEAT then some (wordOf [(s.module.floorPs % 4096, 0), (b2n s.module.defaulted, 31)])
  else if a = Reg.global.PM_STATE 0 then some (s.pmState 0)
  else if a = Reg.global.PM_STATE 1 then some (s.pmState 1)
  else if a = Reg.global.TUN_STATUS then
    some (wordOf [(s.host.tun.length % 128, 0), (b2n s.host.tunErr, 8), (s.host.tunLast % 8, 9)])
  else if a = Reg.global.START_STATUS then some s.startStatus
  else none

/-- HEAD and WRAPS of a ring of `size` entries after `n` were written. -/
def ringHead (n size : Nat) : Word := wordOf [(n % size, 0), (sat 16 (n - size), 16)]

def State.gleanerView (s : State) (a : Nat) : Option Word :=
  if a = Reg.gleaner.GL_TIME_LO then some (BitVec.ofNat 32 s.time)
  else if a = Reg.gleaner.LOG_HEAD then some (ringHead s.glogCount 256)
  else if Reg.gleaner.LOG_DATA 0 ≤ a ∧ a < Reg.gleaner.LOG_DATA 4 then
    some (s.glog.rd (4 * s.fld Reg.gleaner.LOG_SEL 7 0 + (a - Reg.gleaner.LOG_DATA 0) / 4))
  else if a = Reg.gleaner.PIN_MASK then some (s.reg a ||| 0x10#32)
  else if a = Reg.gleaner.RET_ENG_LO then some (BitVec.ofNat 32 (bitMap 32 (fun e => (s.engine e).retired)))
  else if a = Reg.gleaner.RET_ENG_HI then some (BitVec.ofNat 32 (bitMap 32 (fun e => (s.engine (32 + e)).retired)))
  else if a = Reg.gleaner.RET_CHAN then
    some (wordOf [(bitMap 16 (fun k => (s.stack k).pondRetired), 0), (bitMap 16 (fun k => (s.stack k).lakeRetired), 16)])
  else if a = Reg.gleaner.RET_PORT then some (BitVec.ofNat 32 (bitMap 24 (fun p => (s.port p).retired)))
  else if a = Reg.gleaner.RET_FLUME then some (BitVec.ofNat 32 (bitMap 32 (fun f => (s.flume f).retired)))
  else if a = Reg.gleaner.GL_STATE then some (BitVec.ofNat 32 (b2n s.fatal))
  else if a = Reg.gleaner.SLICE_PEND then
    some (BitVec.ofNat 32 (sat 16 (s.slicePend.length
      + (List.range 16).foldl (fun n k => n + ((s.stack k).spareQ.filter (fun e => !e.2)).length) 0)))
  else none

def TxState.code : TxState → Nat
  | .idle => 0 | .opened => 1 | .committing => 2

/-- REC_LIVEb (R238). -/
def State.recLive (s : State) (b : Nat) : Word :=
  let x := s.span b
  wordOf [(x.recIx % 1024, 0), (b2n (s.tally.live && x.live), 10), (b2n (x.live && x.released), 11)]

/-- The wait fields while a commit waits, or as its end left them (R477). -/
def State.waitsNow (s : State) : State := if s.tally.state = .committing then s.keepWaits else s

def State.tallyView (s : State) (a : Nat) : Option Word :=
  let t := s.tally
  if a = Reg.tally.TX_STATUS then
    some (wordOf [(t.state.code, 0), (t.owner % 64, 2), (b2n t.overflow, 8), (t.result % 8, 9), (t.lastCause % 256, 12)])
  else if a = Reg.tally.TX_ID then some (BitVec.ofNat 32 t.txId.toNat)
  else if a = Reg.tally.TX_SHADOWS then some (BitVec.ofNat 32 (t.nShadows % 8192))
  else if a = Reg.tally.TX_WAIT then
    let u := s.waitsNow.tally
    some (wordOf [(u.waitBarns % 256, 0), (b2n u.waitStep, 8), (b2n (decide (u.waitFlumes ≠ 0)), 9)])
  else if a = Reg.tally.TX_WAIT_FL then some (BitVec.ofNat 32 s.waitsNow.tally.waitFlumes)
  else if a = Reg.tally.TX_ELAPSED then some (BitVec.ofNat 32 (sat 24 (usOf t.elapsed)))
  else if a = Reg.tally.TX_COUNT then some (wordOf [(t.applied % 65536, 0), (t.failed % 65536, 16)])
  else if a = Reg.tally.ADM_RATE 4 then some (BitVec.ofNat 32 (s.rateReg 4))
  else if Reg.tally.REC_LIVE 0 ≤ a ∧ a < Reg.tally.REC_LIVE 8 then some (s.recLive ((a - Reg.tally.REC_LIVE 0) / 4))
  else none

/-! ## Gauge, host, management -/

/-- Q: the smallest of the loops' factors (R366), and the terms below 256 (PACE_SRC). -/
def Gauge.paceOf (g : Gauge) : Nat := min (min g.qPolicy g.qPower) (min (min g.qThermal g.qHold) g.qFw)
def Gauge.paceSrc (g : Gauge) : Nat :=
  bitMap 5 (fun i => decide ([g.qPolicy, g.qPower, g.qThermal, g.qHold, g.qFw].getD i 256 < 256))

def State.gaugeView (s : State) (a : Nat) : Option Word :=
  let g := s.gauge
  if a = Reg.gauge.GA_STATUS then
    some (wordOf [(b2n s.inHold, 0), (b2n g.alert, 1), (b2n s.deadlineLive, 2), (b2n g.polClamped, 3),
      (b2n g.pcapUnmet, 4), (b2n g.fwMode, 5), (b2n g.fwFallback, 6), (g.paceSrc, 8), (g.stopReason % 4, 13)])
  else if a = Reg.gauge.PACE_NOW then some (BitVec.ofNat 32 g.paceOf)
  else if a = Reg.gauge.PL_EXCESS then some (BitVec.ofNat 32 (sat 13 (g.excess / 100)))
  else if a = Reg.gauge.BO_COUNT then
    let n := (windowed s.time (1000 * s.fld Reg.gauge.BO_WINDOW 23 0) g.boTimes).length
    some ((s.reg a).setBits 23 16 (sat 8 n))
  else none

def State.hostView (s : State) (a : Nat) : Option Word :=
  let h := s.host
  if a = Reg.host.HOST_STATUS then
    some (wordOf [(if h.linkUp then h.rate % 16 else 0, 0), (if h.linkUp then h.width % 32 else 0, 4), (b2n (h.linkUp && h.flit), 9),
      (b2n h.atsEn, 10), (b2n h.priEn, 11), (b2n h.d3hot, 12)])
  else if a = Reg.host.HOST_ERR then some (wordOf [(sat 16 h.badAccess, 0), (sat 16 h.completerAborts, 16)])
  else none

def State.mgmtView (s : State) (a : Nat) : Option Word :=
  if a = Reg.mgmt.MGMT_STATUS then
    some (wordOf [(s.mgmt.smbEid.toNat, 0), (s.mgmt.pcieEid.toNat, 8), (s.mgmt.smbSpeed % 4, 16), (s.module.straps.smbAddr.toNat, 18)])
  else if a = Reg.mgmt.MGMT_ERR then some (wordOf [(sat 16 s.mgmt.malformed, 0), (sat 16 s.mgmt.dropped, 16)])
  else none

/-! ## Barns and engines -/

def SeqPhase.code : SeqPhase → Nat
  | .idle => 0 | .run => 1 | .fallow => 2 | .cc => 3

def State.barnView (s : State) (b a : Nat) : Option Word :=
  let x := s.barn b
  if a = Reg.barn.SEQ_STATUS b then
    some (wordOf [(x.phase.code, 0), (b2n x.active, 2), (b2n (s.swapPending b), 3), (x.loops.length % 8, 4)])
  else if a = Reg.barn.SEQ_PC b then some (wordOf [(x.pc.toNat, 0), (b2n x.ccSave.isSome, 13)])
  else if Reg.barn.LOOP_CNT b 0 ≤ a ∧ a < Reg.barn.LOOP_CNT b 6 then
    some (match x.loops[(a - Reg.barn.LOOP_CNT b 0) / 4]? with
      | some l => BitVec.ofNat 32 l.ctr.toNat
      | none => 0)
  else if a = Reg.barn.ENGINE_EN b then some (BitVec.ofNat 32 (s.engineEn b))
  else if a = Reg.barn.SEG_RESTART b then some (wordOf [(b2n x.pendingRestart, 1), (b2n x.escalated, 2)])
  else if a = Reg.barn.SEG_START b then some (wordOf [(x.snap.pc.toNat, 0), (b2n x.snap.ccBank, 13)])
  else if a = Reg.barn.SEG_SIGNALS b then some (wordOf [(x.segSignals.toNat, 0), (x.suppress.toNat, 16)])
  else if a = Reg.barn.SNAP_DATA b then some (x.snap.word (s.fld (Reg.barn.SNAP_CTRL b) 4 0))
  else none

def BinState.code : BinState → Nat
  | .invalid => 0 | .filling => 1 | .settling => 2 | .held => 3 | .draining => 4
def InvReason.code : InvReason → Nat
  | .reset => 0 | .abort => 1 | .checksum => 2 | .limit => 3

/-- A bin's state register (R91). INV_REASON reads 0 where the bin is not INVALID (assumption 85). -/
def Bin.view (x : Bin) : Word :=
  wordOf [(x.state.code, 0), (if x.state = .invalid then x.inv.code else 0, 4), (x.form % 4, 8), (b2n x.carried, 10)]

/-- The computed registers of an engine page. BUSY of WN_STATUS shows a BINRD or carried spill in progress too (assumption 81). -/
def State.engineView (s : State) (e a : Nat) : Option Word :=
  let x := s.engine e
  if a = Reg.engine.WORK_BEATS_LO e then some (BitVec.ofNat 32 x.workBeats.toNat)
  else if a = Reg.engine.PACE_BEATS_LO e then some (BitVec.ofNat 32 x.paceBeats.toNat)
  else if a = Reg.engine.BIN_MAP e then some (BitVec.ofNat 32 (b2n (if x.retired then x.mapAt else (s.barn (e / 8)).swapped)))
  else if a = Reg.engine.BIN_A_STATE e then some x.bins[0].view
  else if a = Reg.engine.BIN_B_STATE e then some x.bins[1].view
  else if a = Reg.engine.BIN_A_STEPS e then some (BitVec.ofNat 32 x.bins[0].steps)
  else if a = Reg.engine.BIN_B_STEPS e then some (BitVec.ofNat 32 x.bins[1].steps)
  else if a = Reg.engine.CHK_COUNT e then
    let n := if x.retired then x.inWindowAt
      else (windowed s.time (1000 * s.fld (Reg.engine.CHK_WINDOW e) 23 0) x.chkTimes).length
    some ((s.reg a).setBits 7 0 (sat 8 n))
  else if a = Reg.engine.IQ_LEVEL e then
    some (wordOf (x.iq.toList.zipIdx.map (fun q => (q.1.length % 8, 3 * q.2))))
  else if a = Reg.engine.OQ_LEVEL e then
    some (wordOf (x.oq.toList.zipIdx.map (fun q => (q.1.length % 8, 3 * q.2))))
  else if a = Reg.engine.ENGINE_STATE e then some (BitVec.ofNat 32 (b2n x.retired))
  else if a = Reg.engine.WN_STATUS e then
    some (wordOf [(b2n x.drain.isSome, 0), (x.holds.length % 4, 1), (b2n x.tables[0].isSome, 3), (b2n x.tables[1].isSome, 4)])
  else if a = Reg.engine.AG_STATUS e then
    some (wordOf [(bitMap 8 (fun n => (x.gens[n]?.getD ⟨none, none⟩).cur.isSome), 0),
      (bitMap 8 (fun n => (x.gens[n]?.getD ⟨none, none⟩).pend.isSome), 8)])
  else none

/-! ## Flumes, stacks, ports, processors -/

def FlState.code : FlState → Nat
  | .idle => 0 | .active => 1 | .activeNext => 2 | .aborted => 3

def State.flumeView (s : State) (f a : Nat) : Option Word :=
  let x := s.flume f
  if a = Reg.flume.FL_STATUS f then
    some (wordOf [(x.state.code, 0), (b2n x.gated, 2), (b2n x.hgWait, 3), (b2n x.mid, 4)])
  else if a = Reg.flume.CUR_ADDR_LO f then some (BitVec.ofNat 32 x.curAddr)
  else if a = Reg.flume.CUR_ADDR_HI f then some (BitVec.ofNat 32 (x.curAddr / 2 ^ 32 % 1024))
  else if a = Reg.flume.NEXT_ADDR_LO f then some (BitVec.ofNat 32 (x.nextAddr.getD 0))
  else if a = Reg.flume.NEXT_ADDR_HI f then
    some (match x.nextAddr with
      | some n => wordOf [(n / 2 ^ 32 % 1024, 0), (1, 31)]
      | none => 0)
  else if a = Reg.flume.DONE_LO f then
    some (BitVec.ofNat 32 ((x.cur.map (fun t => t.prefixDone + t.ackedAhead.length)).getD 0))
  else if a = Reg.flume.HG_LEVEL f then some (BitVec.ofNat 32 (sat 24 (x.bucket / 10000)))
  else if a = Reg.flume.FL_BYTES_LO f then some (BitVec.ofNat 32 x.bytes.toNat)
  else none

def MkState.code : MkState → Nat
  | .idle => 0 | .awaiting => 1 | .running => 2 | .halted => 3 | .awaitRelease => 4 | .pausedT3 => 5

/-- SPARE_LEFT of a tier: the fewest spare rows left in any bank of any of its dies (R269). -/
def Stack.spareLeft (x : Stack) (lake : Bool) : Nat :=
  ((x.bankSpares ++ x.sparesUsed).filter (fun e => decide (dieLake e.1 = lake))).foldl (fun m e => min m (x.leftIn e.1))
    (min (dieRows lake) (if lake then x.spare0.2 else x.spare0.1))

def State.stackView (s : State) (k a : Nat) : Option Word :=
  let x := s.stack k
  if a = Reg.ctl.MEM_STATUS k then
    some (((s.reg a).setBits 2 2 (b2n x.pondRetired)).setBits 3 3 (b2n x.lakeRetired))
  else if a = Reg.mkv.MK_STATUS k then some (wordOf [(x.vu.code, 0), (x.mkRec % 1024, 3)])
  else if a = Reg.rep.SPARE_LEFT k then some (wordOf [(x.spareLeft false % 65536, 0), (x.spareLeft true % 65536, 16)])
  else none

def Link.code : Link → Nat
  | .down => 0 | .training => 1 | .up => 2 | .retired => 3

def State.portView (s : State) (p a : Nat) : Option Word :=
  let x := s.port p
  if a = Reg.port.PORT_STATUS p then
    some (wordOf [(x.link.code, 0), (x.lanes.toNat, 2), (b2n x.suspect, 6), (b2n x.slowTx, 7), (b2n x.slowRx, 8), (x.proto % 16, 16)])
  else if a = Reg.port.LANE_FAILS p then
    some (wordOf (x.laneFails.toList.zipIdx.map (fun q =>
      (sat 8 (windowed s.time (1000 * s.fld (Reg.port.LANE_WINDOW p) 23 0) q.1).length, 8 * q.2))))
  else if a = Reg.port.CSUM_COUNT p then
    some ((s.reg a).setBits 7 0 (sat 8 (windowed s.time (1000 * s.fld (Reg.port.CSUM_WINDOW p) 23 0) x.csumTimes).length))
  else none

def FpState.code : FpState → Nat
  | .halted => 0 | .loading => 1 | .running => 2

/-- Byte `i` of the identity public key (R424); 0 where no seed is fused. -/
def State.idPub (s : State) : List Byte := match s.fuses.idSeed with
  | some z => Config.ed25519Public z
  | none => []

def State.fpView (s : State) (k a : Nat) : Option Word :=
  let x := s.fp k
  if a = Reg.fp.FP_STATUS k then
    some (wordOf [(x.state.code, 0), (b2n x.slotB, 3), (b2n x.exhausted, 4), (b2n x.newPending, 5)])
  else if a = Reg.fp.RESTARTS k then
    some (wordOf [(sat 8 (windowed s.time (1000 * s.fld (Reg.fp.RESTART_WINDOW k) 23 0) x.restartTimes).length, 0),
      (sat 16 x.restarts, 8)])
  else if a = Reg.fp.LOG_HEAD k then some (ringHead x.logCount 8192)
  else if k = 0 ∧ Reg.fp.ID_PUB 0 0 ≤ a ∧ a < Reg.fp.ID_PUB 0 8 then some (wordAt s.idPub (a - Reg.fp.ID_PUB 0 0))
  else if k = 0 ∧ a = Reg.fp.SVN_FUSED 0 then some (BitVec.ofNat 32 (s.fuses.svn % 128))
  else none

/-! ## Fault and thermal outputs (R393) -/

/-- Is FAULT_N low: a summary bit set of a class in PIN_MASK, or the Fatal state, or STOPPED, or a locked module (R455)? -/
def State.faultLow (s : State) : Bool :=
  s.fatal || s.module.locked || decide (s.module.power = .stopped) || (List.range 128).any (fun i =>
    s.regBit (Reg.gleaner.FSW0 + 4 * (i / 32)) (i % 32)
      && (List.range 5).any (fun c => bit (s.fswCls.rd i).toNat c && (decide (c = 4) || s.regBit Reg.gleaner.PIN_MASK c)))

/-- Is THERM_N low: a stack at T2 or T3, Q_thermal below 256, or a thermal trip? -/
def State.thermLow (s : State) : Bool :=
  (List.range 16).any (fun k => decide (2 ≤ s.fld (Reg.ctl.MEM_STATUS k) 1 0)) || decide (s.gauge.qThermal < 256) || s.gauge.tripped

/-- MOD_READY is high in RUN and HOLD (R455). -/
def State.modReady (s : State) : Bool := s.up

/-! ## The read of a register -/

/-- What a page computes for a register; none where the stored word is read. -/
def State.blockView (s : State) (a : Nat) : Option Word :=
  match pageOf a with
  | .global => s.globalView a
  | .gleaner => s.gleanerView a
  | .tally => s.tallyView a
  | .gauge => s.gaugeView a
  | .host => s.hostView a
  | .mgmt => s.mgmtView a
  | .barn b => s.barnView b a
  | .engine e => s.engineView e a
  | .flume f => s.flumeView f a
  | .ctl k | .mad k | .mkv k | .rep k => s.stackView k a
  | .port p => s.portView p a
  | .fp k => s.fpView k a
  | .spring | .fpLog _ | .granary _ | .unassigned => none

/-- Word of the Granary load window (R188, R189): a live bank reads 0. -/
def State.granWord (s : State) (b a : Nat) : Word :=
  let o := a - (Page.granary b).base
  let k := if o < 0x18000 then 0 else if o < 0x30000 then 1 else 2
  let i := o - 0x18000 * k
  if s.bankLive b k then 0 else BitVec.ofNat 32 ((s.gran.rd (granKey b k (i / 16))).toNat / 2 ^ (8 * (i % 16)))

/-- Word of the log view (R435): 32 KiB of the ring, chosen by LOG_WIN. -/
def State.logWord (s : State) (k a : Nat) : Word :=
  let o := 32768 * s.fld (Reg.fp.LOG_WIN k) 2 0 + (pageOffset a - 0x8000)
  BitVec.ofNat 32 (leNat ((s.fp k).log.rdBytes o 4))

/-- The value that a read of register `a` returns, a multiple of 4. A write-only field reads 0, an offset that no table names 0
(R7, R463), and so does every register of an absent unit's page (R467). -/
def State.readReg (s : State) (a : Nat) : Word :=
  let pg := pageOf a
  match pg with
  | .unassigned => 0
  | .granary b => s.granWord b a
  | .fpLog k => s.logWord k a
  | _ =>
    if (match pg with
        | .engine e => !s.present e
        | _ => false) then 0
    else match regDef? a with
      | none => 0
      | some d =>
        let v := match s.headerView pg (pageOffset a) with
          | some w => w
          | none => (s.blockView a).getD (s.reg a)
        v &&& ~~~ d.wo

/-- What a read of a register does besides (R43, R236, R296, R355, R394): a low half latches its high half, SNAP_DATA counts its
word on. -/
def State.readEffect (s : State) (a : Nat) : State :=
  match pageOf a with
  | .engine e =>
    let x := s.engine e
    if !s.present e then s
    else if a = Reg.engine.WORK_BEATS_LO e then s.setReg (Reg.engine.WORK_BEATS_HI e) (BitVec.ofNat 32 (x.workBeats.toNat / 2 ^ 32))
    else if a = Reg.engine.PACE_BEATS_LO e then s.setReg (Reg.engine.PACE_BEATS_HI e) (BitVec.ofNat 32 (x.paceBeats.toNat / 2 ^ 32))
    else s
  | .flume f =>
    let x := s.flume f
    if a = Reg.flume.DONE_LO f then
      s.setReg (Reg.flume.DONE_HI f)
        (BitVec.ofNat 32 (((x.cur.map (fun t => t.prefixDone + t.ackedAhead.length)).getD 0) / 2 ^ 32 % 65536))
    else if a = Reg.flume.FL_BYTES_LO f then s.setReg (Reg.flume.FL_BYTES_HI f) (BitVec.ofNat 32 (x.bytes.toNat / 2 ^ 32))
    else s
  | .gleaner =>
    if a = Reg.gleaner.GL_TIME_LO then s.setReg Reg.gleaner.GL_TIME_HI (BitVec.ofNat 32 (s.time / 2 ^ 32)) else s
  | .barn b =>
    if a = Reg.barn.SNAP_DATA b then
      s.setFld (Reg.barn.SNAP_CTRL b) 4 0 (s.fld (Reg.barn.SNAP_CTRL b) 4 0 + 1)
    else s
  | _ => s

end Sys2Proof.Machine
end

