-- ==== Sys2Proof/Machine/Firmware.lean ====
section
/-! DEFINITION. Firmware processors: images and their verification (R419 to R421), restarts alone (R415 to R417), log rings
(R418), security versions (R422), updates (R423), attestation (R425). -/

namespace Sys2Proof.Machine

/-- FROZEN bytes of a fixed length from a list: missing bytes read 0. -/
def padTo (n : Nat) (bs : List Byte) : List Byte := (List.range n).map (fun i => byteAt bs i)

/-- Bytes of local memory (R413). -/
abbrev localBytes : Nat := 393216

/-! ## Images -/

/-- Is the slot the factory's? -/
def ImageSlot.factory (x : ImageSlot) : Bool := x.manifest.isEmpty && x.image.isEmpty

/-- Security version, version and digest of a slot's image (R419). -/
def ImageSlot.svn (x : ImageSlot) (k : Nat) : Nat := if x.factory then (Config.factorySvn k).toNat else (byteAt x.manifest 8).toNat
def ImageSlot.version (x : ImageSlot) (k : Nat) : Word := if x.factory then Config.factoryVersion k else wordAt x.manifest 4
def ImageSlot.digest (x : ImageSlot) (k : Nat) : List Byte :=
  padTo 64 (if x.factory then Config.factoryDigest k else (x.manifest.drop 20).take 64)

/-- Are bytes [lo, hi) of a manifest 0? -/
def zeroBytes (m : List Byte) (lo hi : Nat) : Bool := (List.range (hi - lo)).all (fun i => decide (byteAt m (lo + i) = 0))

/-- The checks of R421 on an image that came by an update, its security version apart. -/
def manifestOk (key : List Byte) (k : Nat) (m img : List Byte) : Bool :=
  let len := (wordAt m 12).toNat
  decide (m.length = 192) && decide (leNat (m.take 2) = 1) && decide ((byteAt m 2).toNat = k + 1) && zeroBytes m 3 4
    && zeroBytes m 9 12 && zeroBytes m 84 128 && decide (4 ≤ len) && decide (len ≤ localBytes) && decide (len % 4 = 0)
    && decide ((wordAt m 16).toNat < localBytes) && decide (img.length = len) && decide ((byteAt m 8).toNat < 64)
    && Config.ed25519Verify key (m.take 128) ((m.drop 128).take 64)
    && decide (padTo 64 (Config.sha512 img) = (m.drop 20).take 64)

/-- Does a slot of processor `k` pass verification (R421)? The factory's image does, its security version permitting
(assumption 19). -/
def State.slotOk (s : State) (k : Nat) (x : ImageSlot) : Bool :=
  x.valid && decide (s.fuses.svn ≤ x.svn k) && (x.factory || manifestOk s.fuses.signKey k x.manifest x.image)

/-- The slot with index 0 (A) or 1 (B). -/
def Fp.slot (x : Fp) (b : Bool) : ImageSlot := if b then x.slots[1] else x.slots[0]
def Fp.setSlot (x : Fp) (b : Bool) (y : ImageSlot) : Fp := { x with slots := x.slots.set (if b then 1 else 0) y (by split <;> decide) }

/-! ## Log rings (R418) -/

/-- A log entry of processor `k`, at a trace point whose level is at or below TRACE_LEVEL. -/
def State.fpLog (s : State) (k tp level a0 : Nat) : State :=
  if s.fld (Reg.fp.TRACE_LEVEL k) 1 0 < level then s else
  let e := leBytes 8 s.time ++ leBytes 2 tp ++ leBytes 2 level ++ leBytes 4 s.module.starts ++ leBytes 4 a0 ++ List.replicate 12 0
  s.modFp k (fun x => { x with log := x.log.wrBytes (32 * (x.logCount % 8192)) e, logCount := x.logCount + 1 })

/-! ## Running an image (R416) -/

/-- The bytes of a slot's image. -/
def ImageSlot.bytes (x : ImageSlot) (k : Nat) : List Byte :=
  (if x.factory then Config.factoryImage k else x.image).take localBytes

/-- An image enters local memory, which keeps nothing from before. The first word is written under ERR_INJECT (R406): one inverted check
bit is corrected as the core reads the word, counted, and an event in class Corrected (assumption 83); two stand in the word. -/
def State.loadRam (s : State) (k : Nat) (d : List Byte) : State :=
  let a := Reg.fp.page k + Reg.header.ERR_INJECT
  let one := s.regBit a 0
  let two := s.regBit a 1
  let s := s.setFld a 1 0 0
  let s := s.modFp k (fun x => { x with ram := CMap.wrBytes [] 0 d, ramBad := if two then [(0, 2#2)] else [] })
  if one then
    (s.incFld (Reg.fp.LOCAL_ECC k) 15 0).report (.fp k) { cause := Cause.MEM_UNCORRECTABLE, cls := Cls.corrected, inj := true }
  else s

/-- The image of the active slot runs. -/
def State.runImage (s : State) (k : Nat) : State :=
  let x := s.fp k
  let y := x.slot x.slotB
  let s := s.loadRam k (y.bytes k)
  let s := s.modFp k (fun x => { x with state := .running, runDigest := y.digest k, wdElapsed := 0, newPending := false })
  (s.setReg (Reg.fp.IMG_VERSION k) (y.version k)).setReg (Reg.fp.IMG_SVN k) (BitVec.ofNat 32 (y.svn k % 64))

/-- SIGNATURE for an image that failed: FP-B raises it, whichever processor's image it is (R398, R416, R421). -/
def State.signature (s : State) : State := s.report (.fp 0) { cause := Cause.SIGNATURE, cls := Cls.contained }

/-- Steps 2 to 4 of R416: the active slot, else the other one, else HALTED. -/
def State.loadImage (s : State) (k : Nat) : State :=
  let x := s.fp k
  if s.slotOk k (x.slot x.slotB) then s.runImage k
  else
    let s := s.signature.modFp k (fun x => { x with slotB := !x.slotB })
    let x := s.fp k
    if s.slotOk k (x.slot x.slotB) then s.runImage k
    else s.signature.modFp k (fun x => { x with state := .halted })

/-- A restart alone, counted, with its trace point (R416 to R418). -/
def State.restartAlone (s : State) (k cause : Nat) : State :=
  let s := s.modFp k (fun x => { x with
    state := .loading, exhausted := false, restartHeld := false, restarts := satInc 16 x.restarts,
    restartTimes := x.restartTimes ++ [s.time] })
  (s.loadImage k).fpLog k 0x0201 0 cause

/-- Restarts that lie within RESTART_WINDOW now. -/
def State.restartsNow (s : State) (k : Nat) : Nat :=
  (windowed s.time (1000 * s.fld (Reg.fp.RESTART_WINDOW k) 23 0) (s.fp k).restartTimes).length

/-- An event of R415: the fourth within the window exhausts the processor (R417). `reset` is a RESTART by the host window or the
management port. -/
def State.restartEvent (s : State) (k cause : Nat) (reset : Bool) : State :=
  if (s.fp k).exhausted then (if reset then s.restartAlone k cause else s)
  else if 3 ≤ s.restartsNow k then s.modFp k (fun x => { x with state := .halted, exhausted := true })
  else s.restartAlone k cause

/-! ## RESTART, WD_KICK, WD_PERIOD -/

/-- A write of RESTART to FP_CTRL (R415): on a frozen processor it waits for the release. -/
def State.fpRestartBy (s : State) (w : Writer) (k : Nat) : State :=
  if w.isIn [.host, .mgmt] || (decide (w = .fp 0) && decide (k ≠ 0)) then
    if s.frozen (Master.fp k) then
      (if (s.fp k).exhausted && decide (w = .fp 0) then s else s.modFp k (fun x => { x with restartHeld := true }))
    else s.restartEvent k 0 (w.isIn [.host, .mgmt])
  else s.refuse (.fp k) w Cause.STATE_DISAGREE

/-- RESTART. -/
def execRestart (w : Writer) (k : FpId) (s : State) : Out :=
  .next (s.put w (Reg.fp.FP_CTRL k) (fun s => s.fpRestartBy w k))

/-- WD_KICK (R414): only the processor's own. -/
def State.kickBy (s : State) (w : Writer) (k : Nat) : State :=
  if w.id = Master.fp k then s.modFp k (fun x => { x with wdElapsed := 0 }) else s

/-- WD_KICK. -/
def execWdKick (w : Writer) (k : FpId) (s : State) : Out :=
  .next (s.put w (Reg.fp.WD_KICK k) (fun s => s.kickBy w k))

/-- WD_PERIOD (R435): 0 is refused. -/
def State.wdPeriodBy (s : State) (w : Writer) (k : Nat) (v : Word) : State :=
  if v.field 15 0 = 0 then s.refuseNoFreeze (.fp k) w Cause.FORMAT else s.setReg (Reg.fp.WD_PERIOD k) (v &&& 0xFFFF#32)

/-- WD_PERIOD. -/
def execWdPeriod (w : Writer) (k : FpId) (v : Word) (s : State) : Out :=
  .next (s.put w (Reg.fp.WD_PERIOD k) (fun s => s.wdPeriodBy w k v))

/-- An uncorrectable word of local memory (R415): the processor restarts alone. With ERR_INJECT [1] still set the word is one that the
processor has written since, which no command shows. -/
def State.localLost (s : State) (k : Nat) : State :=
  let a := Reg.fp.page k + Reg.header.ERR_INJECT
  let inj := s.regBit a 1 || (s.fp k).ramBad.any (fun e => decide (e.2 = 2))
  let s := s.setFld a 1 1 0
  let s := s.report (.fp k) { cause := Cause.MEM_UNCORRECTABLE, cls := Cls.transient, inj := inj }
  s.restartEvent k Cause.MEM_UNCORRECTABLE false

/-- LOCAL_MEMORY_UNCORRECTABLE: what the code of local memory makes of words that a running processor uses. Corrected ones are counted
(R413). -/
def execLocalMemoryUncorrectable : Coded FpId → State → Out
  | ⟨k, u⟩, s =>
  .next (
    if (s.fp k).state ≠ .running ∨ !(s.up || s.starting) ∨ s.fatal then s
    else match u with
      | .clean => s
      | .corrected more => s.addFld (Reg.fp.LOCAL_ECC k) 15 0 (more + 1)
      | .uncorrectable => s.localLost k)

/-! ## Security versions and updates -/

/-- The lowest security version among the four running images. -/
def State.lowestSvn (s : State) : Nat := (List.range 4).foldl (fun m k => min m (s.fld (Reg.fp.IMG_SVN k) 5 0)) 63

/-- SVN_COMMIT (R422). -/
def State.svnCommitBy (s : State) (w : Writer) : State :=
  if w.isIn [.host, .mgmt] && decide (s.fuses.svn < s.lowestSvn) then { s with fuses := { s.fuses with svn := s.lowestSvn } }
  else s

/-- SVN_COMMIT. -/
def execSvnCommit (w : Writer) (s : State) : Out :=
  .next (s.put w (Reg.fp.SVN_COMMIT 0) (fun s => s.svnCommitBy w))

/-- An answer of the management port. -/
def State.answer (s : State) (code : Nat) (ws : List Word) : State :=
  { s with mgmt := { s.mgmt with out := s.mgmt.out ++ [.completion code ws] } }

/-- An update's write of a component's inactive slot comes to its end (R423): the slot is verified, then VerifyComplete is answered.
Completion 0 where it verifies, else 1. -/
def State.endUpdate (s : State) (k : Nat) : State :=
  let x := s.fp k
  if x.writing && s.fpbRuns then
    let y : ImageSlot := { x.slot (!x.slotB) with valid := true }
    let ok := !y.factory && s.slotOk k y
    let s := s.setFp k { x.setSlot (!x.slotB) { y with valid := ok } with updated := ok, writing := false }
    if ok then s.answer 0 [] else s.signature.answer 1 []
  else s

/-- The updates that are being written come to their end, which takes until the next tick (assumption 89). -/
def State.endUpdates (s : State) : State := (List.range 4).foldl (fun s k => s.endUpdate k) s

/-- FIRMWARE_UPDATE (R423): the component's inactive slot is being written, and invalid until it is verified. -/
def State.updateSlot (s : State) (k : Nat) (m img : List Byte) : State :=
  s.modFp k (fun x => { x.setSlot (!x.slotB) ⟨m, img, false⟩ with updated := false, writing := true })

/-- FIRMWARE_UPDATE. An earlier update of the component comes to its end first. -/
def execFirmwareUpdate (k : FpId) (m img : List Byte) (s : State) : Out :=
  .next (if s.up && !s.fatal && s.fpbRuns then (s.endUpdate k).updateSlot k m img else s)

/-- ActivateFirmware for one processor: FP-B's new image waits for the next start, an exhausted processor's for its restart (R417). -/
def State.activate (s : State) (k : Nat) : State :=
  if (s.fp k).updated then
    let s := s.modFp k (fun x => { x with updated := false, newPending := true, slotB := !x.slotB })
    if k = 0 ∨ (s.fp k).exhausted then s
    else if s.frozen (Master.fp k) then s.modFp k (fun x => { x with restartHeld := true })
    else s.restartAlone k 0
  else s

/-- ACTIVATE_FIRMWARE (R423). A slot that is still being written is not verified, and so not activated. -/
def execActivateFirmware (s : State) : Out :=
  .next (if s.up && !s.fatal && s.fpbRuns then ((List.range 4).foldl (fun s k => s.activate k) s).answer 0 [] else s)

/-! ## Attestation (R425) -/

/-- GO in ATT_CTRL. -/
def State.attGo (s : State) (w : Writer) : State :=
  if s.fld (Reg.fp.ATT_STATUS 0) 1 0 = 1 then s.refuse (.fp 0) w Cause.FORMAT
  else s.setFld (Reg.fp.ATT_STATUS 0) 1 0 1

/-- ATT_CTRL_GO. -/
def execAttCtrlGo (w : Writer) (s : State) : Out :=
  .next (s.put w (Reg.fp.ATT_CTRL 0) (fun s => s.attGo w))

/-- Bytes 0 to 447 of the report. -/
def State.attBody (s : State) (nonce : List Byte) : List Byte :=
  leBytes 4 1
    ++ leBytes 4 (s.fuses.svn % 128 + bitMap 4 (fun k => (s.fp k).slotB) * 256)
    ++ padTo 32 nonce ++ padTo 32 s.idPub
    ++ (List.range 4).flatMap (fun k => padTo 64 (s.fp k).runDigest)
    ++ leBytes 4 (s.readReg (Reg.global.page + Reg.header.ID)).toNat ++ leBytes 4 s.fuseMap.toNat ++ List.replicate 112 0

/-- The signature by the identity key. -/
def State.attSign (s : State) (body : List Byte) : List Byte :=
  padTo 64 (match s.fuses.idSeed with
    | some z => Config.ed25519Sign z body
    | none => [])

/-- The area as the signing engine fills it; a nonce in an uncorrectable line reads as ones (R261). -/
def State.attest (s : State) : State :=
  let a := s.pair (Reg.fp.ATT_ADDR_LO 0) (Reg.fp.ATT_ADDR_HI 0)
  let r := s.memRead (Master.fp 0) (a + 8) 32
  let body := r.1.attBody (r.2.getD (List.replicate 32 0xFF))
  let s := (r.1.memWrite (Master.fp 0) a (body ++ r.1.attSign body)).1
  s.setFld (Reg.fp.ATT_STATUS 0) 1 0 2

/-- ATTESTATION_DONE: vector 37 tells of it (R444). -/
def execAttestationDone (s : State) : Out :=
  .next (
    if s.fld (Reg.fp.ATT_STATUS 0) 1 0 ≠ 1 ∨ !s.up ∨ s.fatal ∨ !s.fpbRuns then s
    else s.withAccess (Master.fp 0) [(s.pair (Reg.fp.ATT_ADDR_LO 0) (Reg.fp.ATT_ADDR_HI 0), 512)] (fun s => s.attest.msix 37))

end Sys2Proof.Machine
end

