-- ==== Sys2Proof/Machine/Gauge.lean ====
section
/-! DEFINITION. Gauge: its sample of 10 µs (R363 to R377, R44, R45, R266 to R268, R329), brownout hold, supply resets (R378 to
R381), telemetry (R383, R384), the pacing registers of R386. -/

namespace Sys2Proof

/-- The injections of R387: the input voltage, and one junction reading of each die. -/
def Readings.inject (r : Readings) (v j : Bool) : Readings :=
  { r with vin := if v then Option.none else r.vin, tj := if j then (r.tj.set 0 Option.none).set 24 Option.none else r.tj }

/-- Largest reading. -/
def maxOf (l : List (Option Nat)) : Nat := l.foldl (fun m x => max m (x.getD 0)) 0
/-- Smallest reading. -/
def minOf (l : List (Option Nat)) : Nat := ((l.filterMap (fun x => x)).min?).getD 0

/-- Input power in W (R363). -/
def Readings.power (r : Readings) : Nat := (r.vin.getD 0) * (r.iin.getD 0) / 10000
/-- Hottest junction of a die. -/
def Readings.hottest (r : Readings) (east : Bool) : Nat := maxOf (if east then r.tj.drop 24 else r.tj.take 24)
/-- Lowest core voltage of a die. -/
def Readings.lowest (r : Readings) (east : Bool) : Nat := minOf (if east then r.vcore.drop 8 else r.vcore.take 8)
/-- Hottest die of a stack. -/
def Readings.stackTemp (r : Readings) (k : Nat) : Nat := maxOf ((r.stack.drop (17 * k)).take 17)

/-- Reasons of R381. -/
def Rail.reason : Rail → Nat
  | .input => 1
  | .coreWest | .coreEast => 2

/-- Warning level of a rail, falling, in the units of its reading. -/
def Rail.warnLevel : Rail → Nat
  | .input => 4500
  | .coreWest | .coreEast => 660

end Sys2Proof

namespace Sys2Proof.Machine

/-- Summary bit of the supply monitor (R388). -/
abbrev supplyBit : Nat := 122

/-! ## Readings and their parity (R365, R387) -/

/-- A list of readings: one that failed parity is replaced by the previous one. -/
def mergeReadings (new old : List (Option Nat)) : List (Option Nat) :=
  new.zipIdx.map (fun x => match x.1 with
    | some v => some v
    | none => old.getD x.2 none)

/-- Readings that failed parity. -/
def failures (l : List (Option Nat)) : Nat := (l.filter (fun x => x.isNone)).length

/-- Has the engine a pace counter that runs: is it present and not retired? Taking an engine off line stops none (R213). -/
def State.paces (s : State) (e : Nat) : Bool := s.present e && !(s.engine e).retired

/-- Pace readings that failed. -/
def State.paceFailures (s : State) (r : Readings) : Nat :=
  (r.pace.zipIdx.filter (fun x => x.1.isNone && s.paces x.2)).length

/-- Step 1 of a sample: every sensor read, SENS_ERR counted, what stands in for a failed reading. -/
def State.takeReadings (s : State) (r : Readings) : State :=
  let a := Reg.gauge.page + Reg.header.ERR_INJECT
  let r := r.inject (s.regBit a 0) (s.regBit a 1)
  let s := s.setFld a 1 0 0
  let bad := s.paceFailures r + failures r.vcore + failures r.tj + failures r.stack + failures [r.vin, r.iin]
  let p := s.gauge.prev
  let m : Readings := { pace := mergeReadings r.pace p.pace, vcore := mergeReadings r.vcore p.vcore, tj := mergeReadings r.tj p.tj,
                        stack := mergeReadings r.stack p.stack, vin := r.vin.or p.vin, iin := r.iin.or p.iin }
  let s := s.addFld Reg.gauge.SENS_ERR 15 0 bad
  { s with gauge := { s.gauge with prev := m } }

/-- The measurement registers. -/
def State.showReadings (s : State) : State :=
  let r := s.gauge.prev
  let s := s.setReg Reg.gauge.VCORE_MEAS (wordOf [(r.lowest false % 1024, 0), (r.lowest true % 1024, 16)])
  let s := s.setReg Reg.gauge.INPUT_MEAS (wordOf [((r.vin.getD 0) % 8192, 0), (r.power % 8192, 16)])
  let s := s.setReg Reg.gauge.INPUT_I (BitVec.ofNat 32 ((r.iin.getD 0) % 65536))
  s.setReg Reg.gauge.TJ_MAX (wordOf [(r.hottest false % 256, 0), (r.hottest true % 256, 8)])

/-! ## Beats (R44, R45) -/

/-- OVER_FLOOR of a sample: the bit, and the live admission at risk. -/
def State.overFloor (s : State) (e : Nat) : State :=
  let s := s.setFld (Reg.engine.BEAT_MEAS e) 31 31 1
  s.atRisk 3

/-- BEAT_PS and MAX_BEAT_PS of an engine. -/
def State.setBeat (s : State) (e ps : Nat) : State :=
  let a := Reg.engine.BEAT_MEAS e
  let s := (s.setFld a 11 0 ps).setFld a 27 16 (max (s.fld a 27 16) (ps % 4096))
  if s.module.floorPs < ps then s.overFloor e else s

/-- The beat of one engine. An interval whose reading failed parity counts the beats of the one before (assumption 57). A sample with no
pace beat leaves BEAT_PS a free value and sets OVER_FLOOR (assumptions 3 and 57). An interval at whose sample PACE_EN is 0 adds no pace
beats, whatever PACE_EN was in it before (assumption 113). -/
def State.sampleBeat (s : State) (e : Nat) : State :=
  match s.gauge.prev.pace.getD e none with
  | none => s
  | some n =>
    if !s.paces e ∨ !s.regBit (Reg.engine.BEAT_CTRL e) 0 then s
    else
      let s := s.modEngine e (fun x => { x with paceBeats := x.paceBeats + BitVec.ofNat 64 n })
      if n = 0 then
        let q := s.fresh
        (q.2.setBeat e (q.1.toNat % 4096)).overFloor e
      else s.setBeat e (min 4095 (10000000 / n))

/-- Largest BEAT_PS of a die's enabled engines. -/
def State.maxBeat (s : State) (east : Bool) : Nat :=
  (List.range 32).foldl (fun m i =>
    let e := (if east then 32 else 0) + i
    if s.enabled e then max m (s.fld (Reg.engine.BEAT_MEAS e) 11 0) else m) 0

/-- Has no enabled engine of the die made an array beat since the last sample (R372)? -/
def State.dieIdle (s : State) (east : Bool) : Bool :=
  (List.range 32).all (fun i =>
    let e := (if east then 32 else 0) + i
    !s.enabled e || decide ((s.engine e).workBeats = (s.engine e).workMark))

/-! ## Stack levels (R266 to R268) -/

/-- The level that a temperature enters. -/
def levelAt (t : Nat) : Nat := if 105 ≤ t then 3 else if 95 ≤ t then 2 else if 85 ≤ t then 1 else 0
/-- A level is left below this temperature. -/
def leaveBelow (l : Nat) : Nat := if l = 3 then 90 else if l = 2 then 92 else if l = 1 then 82 else 0
/-- The level after a sample. -/
def nextLevel (old t : Nat) : Nat := if old ≤ levelAt t then levelAt t else if t < leaveBelow old then levelAt t else old

/-- T3 (R268): self-refresh, the slice stopped, the optimiser paused, the step aborted or a late fault. -/
def State.enterT3 (s : State) (k : Nat) : State :=
  let s := (s.stopStackSlice k).setFld (Reg.ctl.MEM_STATUS k) 4 4 1
  let s := s.modStack k (fun x => if x.vu = .running then { x with vu := .pausedT3 } else x)
  s.stepFault Cause.STACK_HOT none (some ⟨.ctl k, Cause.STACK_HOT, Cls.transient, false, Master.none, 0⟩)

/-- The stack leaves T3: its traffic goes on, and a paused record (R258). -/
def State.leaveT3 (s : State) (k : Nat) : State :=
  let s := if s.fatal then s else s.setFld (Reg.ctl.MEM_STATUS k) 4 4 0
  s.modStack k (fun x => if x.vu = .pausedT3 then { x with vu := .running } else x)

/-- T2: reported once per entry. -/
def State.enterT2 (s : State) (k : Nat) : State :=
  s.report (.ctl k) { cause := Cause.STACK_HOT, cls := Cls.corrected }

/-- Step 2 of a sample for one stack; one that passes T2 on its way to T3 has reached T2 too (R223). -/
def State.stackLevel (s : State) (k : Nat) : State :=
  let t := s.gauge.prev.stackTemp k
  let a := Reg.ctl.MEM_STATUS k
  let old := s.fld a 1 0
  let new := nextLevel old t
  let s := (s.setFld (Reg.ctl.STACK_TEMP k) 7 0 t).setFld a 1 0 new
  let s := if old = 3 ∧ new < 3 then s.leaveT3 k else s
  let s := if 2 ≤ new ∧ old < 2 then s.atRisk 1 else s
  if new = 3 ∧ old < 3 then s.enterT3 k
  else if new = 2 ∧ old < 2 then s.enterT2 k
  else s

/-! ## Governors (R366 to R377) -/

/-- Are the loops of R376 in force? -/
def State.gowell (s : State) : Bool := s.regBit Reg.gauge.GOV_MODE 0 && !s.gauge.fwNative

/-- POL_BEAT as it governs, and whether R369 clamps it. -/
def State.beatGoal (s : State) : Nat × Bool :=
  let g := s.fld Reg.gauge.POL_BEAT 11 0
  if s.deadlineLive ∧ s.module.floorPs < g then (s.module.floorPs, true) else (g, false)

/-- FLOOR_MV (R39). -/
def State.floorMv (s : State) : Nat := s.fld Reg.global.FLOOR_COND 11 0
/-- Setpoint of a die. -/
def State.setpoint (s : State) (east : Bool) : Nat :=
  if east then s.fld Reg.gauge.VCORE_SET 25 16 else s.fld Reg.gauge.VCORE_SET 9 0
/-- The policy power cap (R386). -/
def State.pcap (s : State) : Nat := min 2400 (s.fld Reg.gauge.POL_PCAP 11 0)
/-- The ceiling, in hold too (R372, R379). -/
def State.vmax (s : State) : Nat :=
  let v := s.fld Reg.gauge.POL_VMAX 9 0
  if s.inHold then min v 750 else v

/-- The setpoint of R372. -/
def State.nativeSet (s : State) (east : Bool) : Nat :=
  let v := s.setpoint east
  let goal := s.beatGoal.1
  let mb := s.maxBeat east
  let want := if s.dieIdle east then s.floorMv else if goal = 0 then s.vmax else if goal < mb then v + 5
    else if mb + 20 < goal then v - 5 else v
  let want := if s.pcap < s.gauge.prev.power then min want (v - 5) else want
  let want := max s.floorMv (min want s.vmax)
  max (v - 5) (min (v + 5) want)

/-- The setpoint of FW_VSET within its bounds (R376); the 750 mV of a hold are reached at the rate of R372 (R379). -/
def State.fwSet (s : State) (east : Bool) : Nat :=
  let v := if east then s.fld Reg.gauge.FW_VSET 25 16 else s.fld Reg.gauge.FW_VSET 9 0
  let v := max s.floorMv (min v (s.fld Reg.gauge.POL_VMAX 9 0))
  if s.inHold then min v (max 750 (s.setpoint east - 5)) else v

/-- Q_power of R374 with a limit. -/
def paceUnder (limit q p : Nat) : Nat :=
  if limit < p then max 16 (q * limit / p) else if p < limit * 97 / 100 then min 256 (q + 8) else q

/-- The excess account and Q_power (R374); E in 10⁻² mJ. -/
def State.powerLoop (s : State) : State :=
  let p := s.gauge.prev.power
  let e := min 500000 (s.gauge.excess + p - 2400)
  let q := paceUnder (if e < 500000 then 2900 else 2400) s.gauge.qPower p
  { s with gauge := { s.gauge with excess := e, qPower := q } }

/-- Q_policy (R373), with POL_CLAMPED and PCAP_UNMET. The power cap's ratio moves on from its own last value. -/
def State.policyLoop (s : State) : State :=
  let g := s.beatGoal
  let floor := decide (s.setpoint false = s.floorMv) && decide (s.setpoint true = s.floorMv)
  let mb := max (s.maxBeat false) (s.maxBeat true)
  let p := s.gauge.prev.power
  let beat := if floor && decide (mb < g.1) then max 16 (256 * mb / g.1) else 256
  let cap := if floor && !s.deadlineLive then paceUnder s.pcap s.gauge.qCap p else 256
  { s with gauge := { s.gauge with
      qPolicy := min beat cap, qCap := cap, polClamped := g.2, pcapUnmet := s.deadlineLive && decide (s.pcap < p) } }

/-- Q_thermal (R375). -/
def State.thermalLoop (s : State) : State :=
  let t := max (s.gauge.prev.hottest false) (s.gauge.prev.hottest true)
  let q := s.gauge.qThermal
  { s with gauge := { s.gauge with qThermal := if t < 100 then min 256 (q + 4) else if t < 103 then q else max 16 (q - 16) } }

/-- Steps 3 and 4 of a sample. -/
def State.governors (s : State) : State :=
  let fw := s.gowell
  let w := if fw then s.fwSet false else s.nativeSet false
  let e := if fw then s.fwSet true else s.nativeSet true
  let s := s.setReg Reg.gauge.VCORE_SET (wordOf [(w % 1024, 0), (e % 1024, 16)])
  let s := s.powerLoop
  if fw then
    let q := s.fld Reg.gauge.FW_PACE 8 0
    { s with gauge := { s.gauge with
        fwMode := true, qPolicy := 256, qCap := 256, qThermal := 256, qFw := q, polClamped := s.beatGoal.2, pcapUnmet := false } }
  else
    let s := s.policyLoop.thermalLoop
    { s with gauge := { s.gauge with fwMode := false, qFw := 256 } }

/-! ## Slow members (R329) -/

/-- The sample period of R44 in 10⁻¹⁰ s. -/
def samplePeriod : Nat := 100000

/-- The check of a send port with a live reduce-scatter record: fewer rows than half of RING_NOM, and upstream rows of the next tile
that waited for half of the sample. -/
def State.slowCheck (s : State) (p : Nat) : State :=
  let live := s.collRecs.filter (fun x => s.reducing x.1 x.2 && decide (x.2.send = p))
  let slow := decide (2 * (s.port p).rowsDone < s.fld (Reg.port.RING_NOM p) 15 0)
  let s := live.foldl (fun s x =>
    let s := if slow && decide (samplePeriod ≤ 2 * 64 * (s.prog x.1).waited) then
        (s.modPort p (fun y => { y with slowTx := true })).modJob x.2.job (fun y => { y with slow := true })
      else s
    if (s.prog x.1).waited = 0 then s else s.modProg x.1 (fun c => { c with waited := 0 })) s
  s.modPort p (fun x => { x with rowsDone := 0 })

/-- SLOW on each of a slow job's ports. -/
def State.sendSlow (s : State) (j : Nat) : State :=
  if (s.job j).slow then (s.jobPorts j).foldl (fun s p => s.sendSym p (symSlow j s.step10)) s else s

/-! ## Telemetry (R383, R384) -/

/-- VALUE of an item, at its place. -/
def State.telValue (s : State) (item : Nat) : Nat :=
  let g := s.gauge
  let levels := (List.range 16).map (fun k => s.fld (Reg.ctl.MEM_STATUS k) 1 0)
  let temps := (List.range 16).map (fun k => s.fld (Reg.ctl.STACK_TEMP k) 7 0)
  match item with
  | 0 => 2 ^ 29 * b2n s.inHold + 2 ^ 30 * b2n g.alert
      + 2 ^ 31 * b2n ((List.range 64).any (fun e => s.regBit (Reg.engine.BEAT_MEAS e) 31))
      + 2 ^ 32 * levels.foldl max 0 + 2 ^ 34 * b2n (decide (g.paceOf < 256)) + 2 ^ 35 * b2n s.deadlineLive
  | 1 => 2 ^ 29 * (s.fld Reg.gauge.INPUT_MEAS 12 0) + 2 ^ 42 * (s.fld Reg.gauge.INPUT_MEAS 28 16) + 2 ^ 55 * g.paceOf
  | 2 =>
    let t := temps.foldl max 0
    let k := temps.findIdx (fun x => decide (x = t))
    2 ^ 29 * k + 2 ^ 33 * t + 2 ^ 41 * levels.getD k 0
  | _ =>
    let bs := (List.range 64).map (fun e => if s.enabled e then s.fld (Reg.engine.BEAT_MEAS e) 11 0 else 0)
    let m := bs.foldl max 0
    let e := bs.findIdx (fun x => decide (x = m))
    2 ^ 29 * m + 2 ^ 41 * e + 2 ^ 47 * s.setpoint (decide (32 ≤ e))

/-- A TELEMETRY symbol. -/
def symTelemetry (origin item hops value : Nat) : BitVec 64 :=
  mkSym Sym.TELEMETRY 0 (2 ^ 8 * (origin % 2 ^ 14) + 2 ^ 22 * (item % 8) + 2 ^ 25 * (hops % 16) + value)

/-- A symbol to forward on a port: its queue holds 64, and the oldest of more is dropped (R384). -/
def State.queueTel (s : State) (p : Nat) (v : BitVec 64) : State :=
  let q := (s.port p).telQ ++ [v]
  let s := if 64 < q.length then s.incFld Reg.gauge.TEL_DROP 31 0 else s
  s.modPort p (fun x => { x with telQ := q.drop (q.length - 64) })

/-- Step 5 of a sample. -/
def State.telemetryOut (s : State) : State :=
  if s.regBit Reg.gauge.TEL_CTRL 0 then
    let v := symTelemetry s.moduleId s.gauge.telItem (s.fld Reg.gauge.TEL_CTRL 10 7) (s.telValue s.gauge.telItem)
    let s := (List.range 24).foldl (fun s p => s.sendSym p v) s
    { s with gauge := { s.gauge with telItem := (s.gauge.telItem + 1) % 4 } }
  else s

/-- Telemetry that a port received lands, in its order, once its memory and a tag let it (R268, R286). -/
def State.landTel (s : State) (p : Nat) : Nat → State
  | 0 => s
  | n + 1 =>
    match (s.port p).telLand with
    | [] => s
    | (a, v) :: rest =>
      s.withAccess (Master.port p) [(a, 8)] (fun s =>
        State.landTel ((s.modPort p (fun x => { x with telLand := rest })).memWrite (Master.port p) a (leBytes 8 v.toNat)).1 p n)

/-- A received TELEMETRY symbol (R384). -/
def State.telemetryIn (s : State) (p : Nat) (v : BitVec 64) : State :=
  let n := v.toNat
  let origin := bits n 21 8
  if origin = s.moduleId then s
  else
    let a := s.pair Reg.gauge.TEL_BASE_LO Reg.gauge.TEL_BASE_HI + origin * 32 + bits n 24 22 * 8
    let s := (s.modPort p (fun x => { x with telLand := x.telLand ++ [(a, v)] })).landTel p ((s.port p).telLand.length + 1)
    let tp := s.fld Reg.gauge.TEL_CTRL 6 2
    let hops := bits n 28 25
    if s.regBit Reg.gauge.TEL_CTRL 1 ∧ 0 < hops ∧ tp ≠ p ∧ tp < 24 then s.queueTel tp (BitVec.ofNat 64 (n - 2 ^ 25)) else s

/-- TELEMETRY. -/
def execTelemetry (p : PortId) (s : State) : Out :=
  .next (if s.up then s.onSymbol p Sym.TELEMETRY (fun s v => s.telemetryIn p v) else s)

/-! ## Supply (R378 to R381) -/

/-- The supply monitor reports. -/
def State.supplyReport (s : State) (cls : Nat) : State := s.reportAt .gauge supplyBit { cause := Cause.SUPPLY_WARN, cls := cls }

/-- BO_LAST_DUR: how long the hold lasted, to the microsecond (R379, R380). -/
def State.holdDur (s : State) : State :=
  s.setReg Reg.gauge.BO_LAST_DUR (BitVec.ofNat 32 (sat 32 (usOf ((s.time : Int) - s.gauge.holdSince).toNat)))

/-- A reset crossing or the thermal trip (R381): the rails go off, the module stands STOPPED. Its management port stays on where the
input stands above 46.5 V (R382). -/
def State.supplyStop (s : State) (reason : Nat) (inputOn : Bool) : State :=
  let s := if s.inHold then s.holdDur else s
  let s := { s with gauge := { s.gauge with stopReason := reason, holdRails := [], qHold := 256 } }
  let s := s.reportFatal .gauge supplyBit { cause := Cause.SUPPLY_WARN, cls := Cls.fatal }
  { s with module := { s.module with power := .stopped, mgmtOn := inputOn } }

/-- SUPPLY_RESET. -/
def execSupplyReset : Crossing → State → Out
  | ⟨rail, inputOn⟩, s =>
  .next (match s.module.power with
    | .off | .stopped => s
    | .start | .test | .run | .hold => s.supplyStop rail.reason inputOn)

/-- Are the supply monitors armed: from step 1 of a start on (R430)? -/
def State.monitored (s : State) : Bool := s.up || decide (s.module.power = .start)

/-- SUPPLY_HIGH_WARN: reported, nothing else (R378). -/
def execSupplyHighWarn (_rail : Rail) (s : State) : Out := .next (if s.monitored then s.supplyReport Cls.corrected else s)

/-- BO_LAST: the lowest reading of the rail that began the hold. -/
def State.boLast (s : State) (rail : Rail) (reading : Nat) (first : Bool) : State :=
  let src := if rail.reason = 1 then 0 else 1
  let old := s.fld Reg.gauge.BO_LAST 12 0
  s.setReg Reg.gauge.BO_LAST (wordOf [((if first then reading else min old reading) % 8192, 0), (src, 13)])

/-- BROWNOUT_HOLD (R379); a further reading of the rail that began the hold only lowers BO_LAST, another rail's joins the
hold. A start goes on under it. -/
def State.holdBy (s : State) (rail : Rail) (reading : Nat) : State :=
  if !s.inHold then
    let s := { s with module := { s.module with power := if s.module.power = Power.run then Power.hold else s.module.power }
                      gauge := { s.gauge with qHold := s.fld Reg.gauge.BO_PACE 8 0, holdRails := [rail], holdSince := s.time } }
    (((s.boLast rail reading true).supplyReport Cls.transient).atRisk 2).noteSubs
  else if s.gauge.holdRails.head? = some rail then s.boLast rail reading false
  else if s.gauge.holdRails.contains rail then s
  else { s with gauge := { s.gauge with holdRails := s.gauge.holdRails ++ [rail] } }

/-- BROWNOUT_HOLD. -/
def execBrownoutHold (rail : Rail) (reading : Nat) (s : State) : Out :=
  .next (if s.monitored ∧ reading ≤ rail.warnLevel then s.holdBy rail reading else s)

/-- The alert of R380, reported once per window. -/
def State.boAlert (s : State) : State :=
  let ms := s.fld Reg.gauge.BO_WINDOW 23 0
  let n := (windowed s.time (1000 * ms) s.gauge.boTimes).length + 1
  let s := { s with gauge := { s.gauge with boTimes := s.gauge.boTimes ++ [s.time] } }
  if n < 3 then s
  else
    let s := { s with gauge := { s.gauge with alert := true } }
    if s.time < s.gauge.alertUntil then s
    else
      let s := { s with gauge := { s.gauge with alertUntil := s.time + ticksOfMs ms } }
      s.supplyReport Cls.corrected

/-- The end of a hold (R380). -/
def State.endHold (s : State) : State :=
  let s := s.holdDur
  let s := { s with module := { s.module with power := if s.module.power = Power.hold then Power.run else s.module.power }
                    gauge := { s.gauge with qHold := 256, holdRails := [] } }
  (s.incFld Reg.gauge.BO_COUNT 15 0).boAlert

/-- BROWNOUT_CLEAR: the hold ends when no rail stays below its level. -/
def execBrownoutClear (rail : Rail) (s : State) : Out :=
  .next (
    if s.monitored ∧ s.gauge.holdRails.contains rail then
      let left := s.gauge.holdRails.filter (fun r => decide (r ≠ rail))
      if left.isEmpty then s.endHold else { s with gauge := { s.gauge with holdRails := left } }
    else s)

/-! ## The sample (R364) -/

/-- The thermal trip of R375. -/
def State.tripNow (s : State) : Bool := decide (115 ≤ max (s.gauge.prev.hottest false) (s.gauge.prev.hottest true))

/-- A rail's reading in a sample, in the units of BO_LAST. -/
def railReading (r : Readings) : Rail → Nat
  | .input => r.vin.getD 0
  | .coreWest => r.lowest false
  | .coreEast => r.lowest true

/-- A sample during the hold reads the rail that began it (R379 step 5). -/
def State.boSample (s : State) : State :=
  match s.gauge.holdRails with
  | rail :: _ => s.boLast rail (railReading s.gauge.prev rail) false
  | [] => s

/-- One sample, in its order. -/
def State.sample (s : State) (r : Readings) : State :=
  let s := (s.takeReadings r).showReadings.boSample
  let s := (List.range 64).foldl (fun s e => s.sampleBeat e) s
  let s := (List.range 16).foldl (fun s k => s.stackLevel k) s
  if s.tripNow then
    let s : State := { s with gauge := { s.gauge with tripped := true } }
    s.supplyStop 3 (decide (4650 < s.gauge.prev.vin.getD 0))
  else
    let s := s.governors.paceRisk
    let s := { s with engines := s.engines.map (fun (x : Engine) => { x with workMark := x.workBeats }) }
    let s := (List.range 24).foldl (fun s p => s.slowCheck p) s
    let s := (List.range 16).foldl (fun s j => s.sendSlow j) s
    s.telemetryOut.noteSubs

/-- GAUGE_SAMPLE: due every 10 µs of the 156.25 MHz reference (R44, R49). -/
def execGaugeSample (r : Readings) (s : State) : Out :=
  if r.wellFormed then .next (
    if s.up ∧ samplePeriod ≤ s.gauge.sampleElapsed then
      ({ s with gauge := { s.gauge with sampleElapsed := s.gauge.sampleElapsed - samplePeriod } } : State).sample r
    else s)
  else .refused .illFormed

/-! ## FW_PACE, BO_PACE (R386) -/

/-- Is a pacing value between 16 and 256? -/
def paceOk (v : Word) : Bool := decide (16 ≤ v.field 8 0) && decide (v.field 8 0 ≤ 256)

/-- FW_PACE; FP-P's write ends the native loops of R377, and FW_FALLBACK stands until it is cleared. -/
def State.fwPaceBy (s : State) (w : Writer) (v : Word) : State :=
  if !paceOk v then s.refuseNoFreeze .gauge w Cause.FORMAT
  else
    let s := s.setReg Reg.gauge.FW_PACE (v &&& 0x1FF#32)
    if w = .fp 3 then { s with gauge := { s.gauge with fwNative := false } } else s

/-- FW_PACE. -/
def execFwPace (w : Writer) (v : Word) (s : State) : Out :=
  .next (s.put w Reg.gauge.FW_PACE (fun s => s.fwPaceBy w v))

/-- BO_PACE. -/
def State.boPaceBy (s : State) (w : Writer) (v : Word) : State :=
  if paceOk v then s.setReg Reg.gauge.BO_PACE (v &&& 0x1FF#32) else s.refuseNoFreeze .gauge w Cause.FORMAT

/-- BO_PACE. -/
def execBoPace (w : Writer) (v : Word) (s : State) : Out :=
  .next (s.put w Reg.gauge.BO_PACE (fun s => s.boPaceBy w v))

end Sys2Proof.Machine
end

