-- ==== Sys2Proof/Machine/Release.lean ====
section
/-! DEFINITION. The release of a frozen master (R401, R403, R404), and the clearing of ERR_STATUS (R466). -/

namespace Sys2Proof

/-- May master `w` release master `m` (R403)? -/
def Writer.mayRelease (w : Writer) (m : Nat) : Bool :=
  match w with
  | .host | .mgmt => true
  | .fp k => decide (k = 0) && decide (m ≠ 2) && decide (m ≠ 0)

end Sys2Proof

namespace Sys2Proof.Machine

/-- What a release does by kind of master (R401): a barn's segment aborts, a vector unit stands at STATE 0, a processor makes the
RESTART that waited (R415). Flumes and the two outer masters go on. -/
def State.onRelease (s : State) (m cause : Nat) : State :=
  if 8 ≤ m ∧ m < 16 then s.segAbort (m - 8) cause
  else if 0x30 ≤ m ∧ m < 0x40 then s.modStack (m - 0x30) (fun x => { x with vu := .idle })
  else if 2 ≤ m ∧ m < 6 ∧ (s.fp (m - 2)).restartHeld then s.restartEvent (m - 2) 0 true
  else s

/-- FROZEN clears, and the master returns to work. -/
def State.releaseMaster (s : State) (m : Nat) : State :=
  let a := (masterPage m).base + Reg.header.FREEZE
  if s.frozen m then (s.setFld a 0 0 0).onRelease m (s.fld a 15 8) else s

/-- A write of 1 to FROZEN of master `m` (R403). In the Fatal state it is ignored (R397); the codes of no master have no page. -/
def State.releaseBy (s : State) (w : Writer) (m : Nat) : State :=
  if masterPage m = .unassigned ∨ s.fatal then s
  else if w.mayRelease m then s.releaseMaster m
  else s.refuse (masterPage m) w Cause.STATE_DISAGREE

/-- FREEZE_RELEASE. -/
def execFreezeRelease (w : Writer) (target : BitVec 6) (s : State) : Out :=
  .next (s.put w ((masterPage target.toNat).base + Reg.header.FREEZE) (fun s => s.releaseBy w target.toNat))

/-- A write of ERR_STATUS (R466): bit 31 clears the register. -/
def State.clearErr (s : State) (a : Nat) (v : Word) : State := if bit v.toNat 31 then s.setReg a 0 else s

end Sys2Proof.Machine
end

