-- ==== Sys2Proof/Machine/Start.lean ====
section
/-! DEFINITION. Starts of the module (R382, R426 to R436, R411, R412), power on and power cycle (R381, R454), the end of an
admission by a start, the watchdogs (R414, R415, R377), loss of the 156.25 MHz reference (R457). A start's steps come to their ends
in START_COMPLETE (assumption 21). -/

namespace Sys2Proof.Machine

/-- A start's trace point on FP-B's ring (R430). -/
def State.trace (s : State) (step : Nat) : State := s.fpLog 0 (0x0100 + step) 0 0

/-! ## Quiesce (R427) -/

/-- Every packet that a port has received is discarded, its credit given back; its symbols stay (R308, R428). -/
def State.dropReceived (s : State) (p : Nat) : State :=
  let q := (s.port p).rxQ
  let s := s.modPort p (fun x => { x with rxQ := q.filter (fun r => match r with
    | .pkt _ => false
    | .sym _ => true) })
  q.foldl (fun s r => match r with
    | .pkt k => s.freePacket p k
    | .sym _ => s) s

/-- A write that the host made, or a tunnel, lands (R427 step 3). -/
def State.landHostWrite (s : State) (a : Nat) : MemAccess → State
  | .read _ _ => s
  | .write _ d en => (s.memWriteMasked Master.host a d en).1

/-- Step 3 of R427: the accepted writes that waited land, each where the WIN_BASE of its time puts it; a row spare is one command and
so complete. -/
def State.landAccepted (s : State) : State :=
  let s := s.host.waiting.foldl (fun s x => s.landHostWrite x.addr x.acc) s
  s.host.winHeld.foldl (fun s x => match x with
    | .base v => s.setReg Reg.host.WIN_BASE (v &&& 0x3F#32)
    | .access acc tunnelled => if tunnelled then s else s.landHostWrite (s.windowAddr acc.offset) acc) s

/-- The sequence of R427. -/
def State.quiesce (s : State) : State :=
  let s := ((s.endAdmission 4).fatalAborts Cause.HOST_ABORT).landAccepted
  let s := (List.range 16).foldl (fun s j => s.dropJobState j false) s
  ((List.range 24).foldl (fun s p => s.dropReceived p) s).allSelfRefresh

/-! ## What a start leaves (R428, R429) -/

/-- A port through a start: the link layer of a link that is up goes on; retirements stand. -/
def Port.atStart (x : Port) : Port :=
  if x.retired then { Port.reset with link := .retired, lanesRetired := x.lanesRetired, retired := true }
  else if x.link = .up then
    { Port.reset with
      link := .up, lanes := x.lanes, proto := x.proto, txSeq := x.txSeq, replay := x.replay, lineOut := x.lineOut,
      lineCount := x.lineCount,
      rxExpect := x.rxExpect, nakSent := x.nakSent, rxBuf := x.rxBuf, rxQ := x.rxQ, lanesRetired := x.lanesRetired,
      laneFrom := x.laneFrom, credit := x.credit, used := x.used, granted := x.granted, taken := x.taken, txSyms := x.txSyms, txBuf := x.txBuf }
  else { Port.reset with lanesRetired := x.lanesRetired }

/-- An engine: a retired one keeps its counters and status (R92); its barn's OFFLINE, which its page shows too, goes with `off`. -/
def Engine.atStart (x : Engine) (off : Bool) : Engine :=
  if x.retired then
    { x with bins := x.bins.map (fun b => b.invalidate .abort), chkTimes := [], workMark := x.workBeats, stepOver := true,
             offline := x.offline || off }
  else Engine.reset

/-- Every engine at a start. -/
def State.enginesAtStart (s : State) : Vector Engine 64 :=
  ((List.range 64).foldl (fun s e => s.modEngine e (fun x => x.atStart (s.barn (e / 8)).offline)) s).engines

/-- A stack: retirements, the repair log and the trained values in flash stand. -/
def Stack.atStart (x : Stack) : Stack :=
  { Stack.reset with
    pondRetired := x.pondRetired, lakeRetired := x.lakeRetired, spare0 := x.spare0, bankSpares := x.bankSpares, sparesUsed := x.sparesUsed,
    repairLog := x.repairLog, assigned := x.assigned, trainedTemp := x.trainedTemp }

/-- A processor: its slots, log ring and counts since power-on stand (R418, R435). A slot that was being written stays invalid (R423). -/
def Fp.atStart (x : Fp) : Fp :=
  { Fp.reset with
    slotB := x.slotB, newPending := x.newPending, updated := x.updated, slots := x.slots, restarts := x.restarts, log := x.log,
    logCount := x.logCount }

/-- Registers of a retired engine that hold counters or status. -/
def State.survives (s : State) (a : Nat) : Bool :=
  match pageOf a with
  | .engine e => (s.engine e).retired && (match regDef? a with
    | some d => decide (d.rw = 0) && decide (d.rws = 0)
    | none => false)
  | _ => false

/-- The processors' FROZEN, FLOOR_PAR and START_STATUS stand (R429, R436), and in a hold what R379 records of it (assumption 96). -/
def State.keepRegs (s old : State) : State :=
  let s := (List.range 4).foldl (fun s k =>
    let a := Reg.fp.page k + Reg.header.FREEZE
    s.setFld a 0 0 (old.fld a 0 0)) s
  let i := Reg.global.page + Reg.header.ERR_INJECT
  let s := (s.setFld i 4 4 (old.fld i 4 4)).setReg Reg.global.START_STATUS (old.reg Reg.global.START_STATUS)
  if old.inHold then s.setReg Reg.gauge.BO_LAST (old.reg Reg.gauge.BO_LAST) else s

/-- The state as a start begins: every register and unit at reset but what R92, R396, R418, R428 and R429 keep. Device memory
keeps its contents through a warm start (R432); other memory holds nothing defined (assumption 2). -/
def State.atStart (s : State) (warm : Bool) : State :=
  let r := State.reset
  let n : State := { r with
    regs := s.regs.filter (fun e => s.survives e.1)
    mem := if warm then s.mem else []
    memTag := if warm then s.memTag else []
    engines := s.enginesAtStart
    flumes := s.flumes.map (fun x => { Flume.reset with retired := x.retired })
    memStacks := s.memStacks.map Stack.atStart
    ports := s.ports.map Port.atStart
    gauge := { r.gauge with prev := s.gauge.prev, holdRails := s.gauge.holdRails, qHold := s.gauge.qHold
                            holdSince := s.gauge.holdSince - s.time }
    fps := s.fps.map Fp.atStart
    fuses := s.fuses
    module := { s.module with power := .start, startWarm := warm, startTicks := 0, startStep := 1, startDue := none
                              failTicks := none, coldHeld := false, starts := s.module.starts + 1 }
    host := { r.host with linkUp := s.host.linkUp, rate := s.host.rate, width := s.host.width, flit := s.host.flit,
                          atsEn := s.host.atsEn, priEn := s.host.priEn, d3hot := s.host.d3hot, out := s.host.out }
    mgmt := { r.mgmt with smbSpeed := s.mgmt.smbSpeed, out := s.mgmt.out }
    tap := s.tap
    freeIx := s.freeIx
    pending := s.pending }
  n.keepRegs s

/-- A start begins: KIND and RESULT show it, and PHASE by the module's step (R436). -/
def State.beginStart (s : State) (warm : Bool) : State :=
  let s := s.atStart warm
  let s := { s with module := { s.module with mgmtOn := true } }
  let a := Reg.global.START_STATUS
  let s := ((s.setFld a 4 4 (b2n warm)).setFld a 6 5 0).setFld a 22 22 0
  if warm then s.allSelfRefresh else s

/-- A request for a start (R426): ignored while a start runs, in the Fatal state, in STOPPED and in TEST. It takes every region that is
under test away, and so waits for the slices that run (R409); a request made meanwhile has no effect. -/
def State.requestStart (s : State) (warm : Bool) : State :=
  if s.up ∧ !s.fatal ∧ s.module.startDue.isNone then
    (if s.sliceRun.isEmpty then s.quiesce.beginStart warm else { s with module := { s.module with startDue := some warm } })
  else s

/-- A start that waited for slices begins once none runs: at the next tick (assumption 112). -/
def State.dueStart (s : State) : State :=
  match s.module.startDue with
  | some warm => if s.sliceRun.isEmpty ∧ !s.fatal then s.quiesce.beginStart warm else s
  | none => s

/-- A write of START_CTRL (R426); with both bits set the start is cold. -/
def State.startCtrl (s : State) (w : Writer) (v : Word) : State :=
  if !w.isIn [.host, .mgmt, .fp 0] then s.refuse .global w Cause.STATE_DISAGREE
  else if v.field 1 0 = 0 then s
  else s.requestStart (!bit v.toNat 1)

/-- WARM. -/
def execWarm (w : Writer) (s : State) : Out :=
  .next (s.put w Reg.global.START_CTRL (fun s => s.startCtrl w 1))
/-- COLD. -/
def execCold (w : Writer) (s : State) : Out :=
  .next (s.put w Reg.global.START_CTRL (fun s => s.startCtrl w 2))

/-- MOD_RST_N: a low of 1 µs or more and the rising edge after it (R456). -/
def execModRstN (s : State) : Out := .next (s.requestStart true)

/-! ## The end of a start -/

/-- Word 0 of a log entry with every field free: the codes that R8 reserves are not among its values. -/
def freeWord0 (v : Word) : Word :=
  let m := v.field 16 11
  ({ cause := 1 + v.field 7 0 % 26, cls := v.field 10 8 % 5, master := if m = 6 then Master.none else m, inj := bit v.toNat 24 } : Event).word0
    (v.field 23 17 % 123)

/-- A start has ended (R444, R452): vector 37, and the event to the receiver. Its data is word 0 of a log entry; no rule gives the
entry of a start's end, so the word's fields are free (assumption 3). -/
def State.startEnded (s : State) : State :=
  let s := s.msix 37
  let q := s.fresh
  q.2.platformEvent (freeWord0 q.1)

/-- What a failed start shows (R433, R436); the processors stop. -/
def State.showFailure (s : State) (step cause : Nat) : State :=
  let a := Reg.global.START_STATUS
  let s := ((s.setFld a 11 8 step).setFld a 19 12 cause).setFld a 6 5 2
  let s := s.setReg Reg.global.START_TIME (BitVec.ofNat 32 (usOf s.module.startTicks / 1000))
  { s with fps := s.fps.map (fun (x : Fp) => { x with state := .halted }) }

/-- A start fails at a step (R433, R434); a module that locks keeps its host link down. -/
def State.failStart (s : State) (step cause : Nat) : State :=
  let a := Reg.global.START_STATUS
  let s := s.showFailure step cause
  let fails := if s.module.startWarm then s.fld a 21 20 else min 3 (s.fld a 21 20 + 1)
  let s := (s.setFld a 21 20 fails).startEnded
  if !s.module.startWarm && decide (2 < fails) then
    let s := s.pcieDown
    { s with module := { s.module with power := .stopped, locked := true, failTicks := none }
             gauge := { s.gauge with stopReason := 0 } }
  else
    let s := { s with module := { s.module with failTicks := some 0 } }
    s.setFld a 22 22 1

/-- The fuse load of step 2 (R39, R40, R424). -/
def State.fuseLoad (s : State) : State :=
  let i := Reg.global.page + Reg.header.ERR_INJECT
  let z := s.fuses
  let bad := s.regBit i 4 || !z.floorParity || decide (z.floor = 0) || decide (720 < z.floor)
  let s := s.setFld i 4 4 0
  { s with
    fuses := { z with idSeed := match z.idSeed with
      | some k => some k
      | none => some Config.entropy }
    module := { s.module with floorPs := if bad then 720 else z.floor, defaulted := bad } }

/-- The images of step 3, each under R416. -/
def State.loadImages (s : State) : State := (List.range 4).foldl (fun s k => s.loadImage k) s

/-- Has a processor no verifiable image? -/
def State.imageMissing (s : State) : Option Nat := (List.range 4).find? (fun k => decide ((s.fp k).state = .halted) && !(s.fp k).exhausted)

/-- An engine that fails at a start. -/
def State.failEngine (s : State) (e cause : Nat) : State := if s.present e then s.retireEngine e cause else s

/-- Step 6: the outcomes of R412 for the units that step 5 tests, on a warm start the arrays alone. -/
def State.applyTests (s : State) (o : StartOutcome) : State :=
  let s := o.engines.foldl (fun s (e : EngId) => s.failEngine e Cause.CHECKSUM_ROWCOL) s
  if s.module.startWarm then s
  else
    let s := o.engineMem.foldl (fun s (e : EngId) => s.failEngine e Cause.MEM_UNCORRECTABLE) s
    let s := o.barns.foldl (fun s (b : BarnId) => s.retireBarn b) s
    o.flumes.foldl (fun s (f : FlumeId) => s.retireFlume f Cause.FORMAT) s

/-- Step 8 of a cold start: channels beyond repair retire, the others' spare rows and repairs are counted anew. -/
def State.repairAnalysis (s : State) (o : StartOutcome) : State :=
  let s := o.channels.foldl (fun s c => s.retireChannel c.1 c.2 (chanDetail c.2) false) s
  (List.range 16).foldl (fun s k =>
    let s := s.modStack k (fun x => { x with
      spare0 := o.spares.getD k (64, 128), bankSpares := o.bankSpares.filter (fun e => decide (dieStack e.1 = k)), sparesUsed := []
      repairLog := [], assigned := o.rowsSpared.getD k 0 })
    s.setReg (Reg.rep.ROWS_SPARED k) (BitVec.ofNat 32 (sat 16 (o.rowsSpared.getD k 0)))) s

/-- Step 9: a port that was down and did not train retires. -/
def State.trainPorts (s : State) (o : StartOutcome) : State :=
  o.ports.foldl (fun s (p : PortId) => if (s.port p).link = .up then s else s.retirePort p) s

/-- Step 10 of a cold start: both channels of a stack whose Mill fails retire. -/
def State.testMills (s : State) (o : StartOutcome) : State :=
  o.mills.foldl (fun s (k : StackId) => (s.retireChannel k .pond (chanDetail .pond) false).retireChannel k .lake (chanDetail .lake) false) s

/-- Step 11 of a cold start: the trained values are written to flash. -/
def State.recordTraining (s : State) (o : StartOutcome) : State :=
  (List.range 16).foldl (fun s k => s.modStack k (fun x => { x with trainedTemp := some (o.temps.getD k 0) })) s

/-- Does the recorded training of a stack serve (R432)? -/
def State.recordServes (s : State) (o : StartOutcome) (k : Nat) : Bool :=
  let t := o.temps.getD k 0
  !bit o.retrained.toNat k && (match (s.stack k).trainedTemp with
    | some r => decide (t ≤ r + 15) && decide (r ≤ t + 15)
    | none => false)

/-- Steps 7 and 11 of a warm start: trained values restored, or made anew and recorded. -/
def State.retrain (s : State) (o : StartOutcome) : State :=
  let ok := bitMap 16 (fun k => s.recordServes o k)
  let s := s.setReg Reg.global.TRAIN_REC (wordOf [(ok, 0), (65535 - ok, 16)])
  (List.range 16).foldl (fun s k =>
    s.modStack k (fun x => { x with trainedTemp := if bit ok k then x.trainedTemp else some (o.temps.getD k 0) })) s

/-- Step 8 of a warm start: the recorded repairs are applied. -/
def State.applyRepairs (s : State) : State :=
  (List.range 16).foldl (fun s k =>
    s.setReg (Reg.rep.ROWS_SPARED k) (BitVec.ofNat 32 (sat 16 ((s.stack k).assigned + (s.stack k).repairLog.length)))) s

/-- The last step (R430, R431): RESULT passed, RUN. Retirements leave AVAIL_EPOCH at 0 (R412). -/
def State.passStart (s : State) : State :=
  let a := Reg.global.START_STATUS
  let s := ((s.setFld a 6 5 1).setFld a 21 20 0).setReg Reg.global.START_TIME (BitVec.ofNat 32 (usOf s.module.startTicks / 1000))
  let s := (List.range 16).foldl (fun s k => s.setFld (Reg.ctl.MEM_STATUS k) 4 4 0) s
  let s := s.setFld Reg.global.AVAIL_EPOCH 15 0 0
  let s := { s with module := { s.module with power := if s.inHold then .hold else .run } }
  s.startEnded

/-- The step after step `n`: a warm start has no steps 4 and 10. -/
def stepAfter (warm : Bool) (n : Nat) : Nat := if warm ∧ (n = 3 ∨ n = 9) then n + 2 else n + 1

/-- A step is complete: its trace point, and the next step is in progress. -/
def State.stepDone (s : State) (n : Nat) : State :=
  let s := s.trace n
  { s with module := { s.module with startStep := stepAfter s.module.startWarm n } }

/-- Step `n` of a start comes to its end, or the start fails at it (R430, R431, R433). The cause of a block test's failure is not in the
spec: a free code of R398 (assumption 3). -/
def State.startStepEnd (s : State) (o : StartOutcome) (n : Nat) : State :=
  let warm := s.module.startWarm
  match n with
  | 2 => if o.fuseMapBad then s.failStart 2 Cause.MEM_UNCORRECTABLE else s.fuseLoad.stepDone 2
  | 3 =>
    let s := s.loadImages
    (match s.imageMissing with
      | some k => (s.modFp k (fun x => x.setSlot x.slotB { x.slot x.slotB with valid := false })).failStart 3 Cause.SIGNATURE
      | none => s.stepDone 3)
  | 4 =>
    if o.blockFailed then
      let q := s.fresh
      q.2.failStart 4 (1 + q.1.toNat % 26)
    else s.stepDone 4
  | 6 => (s.applyTests o).stepDone 6
  | 7 => (if warm then s.retrain o else s).stepDone 7
  | 8 => (if warm then s.applyRepairs else s.repairAnalysis o).stepDone 8
  | 9 => (s.trainPorts o).stepDone 9
  | 10 => (s.testMills o).stepDone 10
  | 11 => (if warm then s else s.recordTraining o).stepDone 11
  | 12 => (s.stepDone 12).passStart
  | _ => s.stepDone n

/-- The steps from the one in progress to step `n`, as far as the start goes on. -/
def State.startSteps (s : State) (o : StartOutcome) : Nat → State
  | 0 => s
  | n + 1 =>
    let s := State.startSteps s o n
    if s.starting ∧ s.module.startStep = n + 1 then s.startStepEnd o (n + 1) else s

/-- Has the start run for as long as it may (R433): 60 s of a cold start, 10 s of a warm one? -/
def State.startLate (s : State) : Bool := reachedMs s.module.startTicks (if s.module.startWarm then 10000 else 60000)

/-- The start's steps up to `upTo` are complete (assumption 21); a start past its time has failed. -/
def State.runStart (s : State) (o : StartOutcome) : State :=
  if s.startLate then s.failStart s.module.startStep Cause.WATCHDOG else s.startSteps o (min o.upTo 12)

/-- START_COMPLETE. -/
def execStartComplete (o : StartOutcome) (s : State) : Out := .next (if s.starting then s.runStart o else s)

/-- START_TIMEOUT (R433): the step in progress is the one that fails. -/
def execStartTimeout (s : State) : Out :=
  .next (if s.starting ∧ s.startLate then s.failStart s.module.startStep Cause.WATCHDOG else s)

/-- FORCE_COLD (R434): one second after a failed start a cold start begins. -/
def execForceCold (s : State) : Out :=
  .next (match s.module.failTicks with
    | some t => if s.module.power = .start ∧ reachedMs t 1000 ∧ !s.fatal then s.beginStart false else s
    | none => s)

/-! ## Power (R381, R382, R454) -/

/-- The module without power: what fuses and flash hold stands. Messages already sent are the model's record and stand. -/
def State.powerOff (s : State) : State :=
  let r := State.reset
  { r with
    fps := s.fps.map (fun x => { Fp.reset with slotB := x.slotB, newPending := x.newPending, updated := x.updated, slots := x.slots })
    memStacks := s.memStacks.map (fun x => { Stack.reset with repairLog := x.repairLog, assigned := x.assigned, trainedTemp := x.trainedTemp })
    fuses := s.fuses
    module := { r.module with
      power := .off, starts := 0, mgmtOn := false, cert := s.module.cert, straps := s.module.straps, ref100 := s.module.ref100,
      ref156 := s.module.ref156 }
    host := { r.host with out := s.host.out }
    mgmt := { r.mgmt with out := s.mgmt.out }
    freeIx := s.freeIx
    pending := s.pending }

/-- POWER_CYCLE (R381): the input has been below 10 V for 100 ms. On its way there it passed the reset crossing. -/
def execPowerCycle (s : State) : Out :=
  .next (match s.module.power with
    | .off | .stopped | .test => s.powerOff
    | .start | .run | .hold => (s.supplyStop 1 false).powerOff)

/-- POWER_ON (R426, R454, R457): the straps are sampled, both reference clocks run; TEST, or a cold start once the junction has 5 °C. -/
def State.powerUp (s : State) (straps : Straps) (tj : Nat) : State :=
  let s := { s with module := { s.module with straps := straps, ref100 := true, ref156 := true } }
  if straps.testMode then { s with module := { s.module with power := .test, mgmtOn := true } }
  else if tj < 5 then { s with module := { s.module with coldHeld := true } }
  else s.beginStart false

/-- POWER_ON. -/
def execPowerOn (straps : Straps) (tj : Nat) (s : State) : Out :=
  .next (if s.module.power = .off ∧ !s.module.coldHeld then s.powerUp straps tj else s)

/-- JUNCTION_READY (R382). -/
def execJunctionReady (s : State) : Out :=
  .next (if s.module.power = .off ∧ s.module.coldHeld then s.beginStart false else s)

/-- STOPPED_INPUT_CROSSING (R382): the management port follows the input. -/
def execStoppedInputCrossing (rising : Bool) (s : State) : Out :=
  .next (if s.module.power = .stopped then { s with module := { s.module with mgmtOn := rising } } else s)

/-! ## Watchdogs (R414, R415, R433) and the reference clock (R457) -/

/-- The report of an expired watchdog. -/
def State.wdReport (s : State) (k : Nat) : State :=
  s.report (.fp k) { cause := Cause.WATCHDOG, cls := Cls.transient, master := Master.fp k }

/-- A watchdog in RUN: FP-P's in the Gowell-compatible mode falls back to the native loops (R377). -/
def State.wdRun (s : State) (k : Nat) : State :=
  let s := s.wdReport k
  let s := if k = 3 ∧ s.regBit Reg.gauge.GOV_MODE 0 then { s with gauge := { s.gauge with fwFallback := true, fwNative := true } } else s
  s.restartEvent k Cause.WATCHDOG false

/-- A watchdog in a start: FP-B's, or a second one of another processor, fails the start (R433); the first of another restarts it alone. -/
def State.wdStart (s : State) (k : Nat) : State :=
  let n := (s.fp k).wdInStart
  let s := (s.wdReport k).modFp k (fun x => { x with wdInStart := n + 1 })
  if k = 0 ∨ 1 ≤ n then s.failStart s.module.startStep Cause.WATCHDOG
  else s.restartEvent k Cause.WATCHDOG false

/-- WATCHDOG: of a processor that runs and is not frozen, since its last kick (R401, R414). -/
def execWatchdog (k : FpId) (s : State) : Out :=
  .next (
    let x := s.fp k
    let period := s.fld (Reg.fp.WD_PERIOD k) 15 0
    if x.state = .running ∧ !s.frozen (Master.fp k) ∧ reachedMs x.wdElapsed period then
      (if s.starting then s.wdStart k else if s.up then s.wdRun k else s)
    else s)

/-- REFCLK_156_LOSS (R457): the monitor's report has a summary bit and no page. -/
def execRefclk156Loss (s : State) : Out :=
  .next (
    if !s.module.ref156 then s
    else
      let s := { s with module := { s.module with ref156 := false } }
      if s.up ∨ s.module.power = .start then
        (s.glean 121 { cause := Cause.WATCHDOG, cls := Cls.fatal }).enterFatal Cause.WATCHDOG
      else s)

end Sys2Proof.Machine
end

