-- ==== Sys2Proof/Machine/Writes.lean ====
section
/-! DEFINITION. Writes of the Register window (R15, R463, R464): which register an offset names, and what a write to it does. -/

namespace Sys2Proof.Machine

/-! ## Device global -/

/-- REQ_MAJ (R447, R10). -/
def State.negotiate (s : State) (n : Nat) : State :=
  if s.host.accMaj = 1 then s
  else { s with host := { s.host with reqMaj := n, accMaj := if n = 1 then 1 else 0 } }

/-- REQ_MAJ. -/
def execReqMaj (w : Writer) (v : BitVec 4) (s : State) : Out :=
  .next (s.put w (Reg.global.page + Reg.header.VERSION) (fun s => s.negotiate v.toNat))

/-- LOCK (R468): a write by a processor other than FP-B has no effect. -/
def State.lockBy (s : State) (w : Writer) : State :=
  if w.isIn [.host, .mgmt, .fp 0] then s.setFld Reg.global.LOCK 1 1 1 else s

/-- LOCK. -/
def execLock (w : Writer) (s : State) : Out := .next (s.put w Reg.global.LOCK (fun s => s.lockBy w))

/-- TUN_CTRL takes effect once no tunnelled access is outstanding (R346); until then it waits in order. -/
def State.tunCtrlBy (s : State) (v : Word) : State :=
  if s.host.tun.isEmpty && s.host.tunHeld.isEmpty then s.setReg Reg.global.TUN_CTRL (v &&& 0xFFFFFF#32)
  else { s with host := { s.host with tunHeld := s.host.tunHeld ++ [.ctrl v] } }

/-- TUN_CTRL. -/
def execTunCtrl (w : Writer) (v : Word) (s : State) : Out :=
  .next (s.put w Reg.global.TUN_CTRL (fun s => s.tunCtrlBy v))

/-- ERR in TUN_STATUS (R347). -/
def State.tunClear (s : State) : State := { s with host := { s.host with tunErr := false } }

/-- TUNNEL_ERR_CLEAR. -/
def execTunnelErrClear (w : Writer) (s : State) : Out :=
  .next (s.put w Reg.global.TUN_STATUS (fun s => s.tunClear))

/-! ## Header -/

/-- ERR_INJECT (R405): the host window, the management port and FP-B write it. -/
def State.injectBy (s : State) (w : Writer) (pg : Page) (a : Nat) (v : Word) : State :=
  if !w.isIn [.host, .mgmt, .fp 0] then s else s.setReg a (v &&& pg.injectMask)

/-! ## Fields of the plain access types (R15) -/

/-- RW fields take the value, RWL fields too before LOCK, each 1 clears a W1C field. -/
def State.plainWrite (s : State) (a : Nat) (d : RegDef) (v : Word) : State :=
  let rw := if s.regBit Reg.global.LOCK 1 then d.rw else d.rw ||| d.rwl
  s.setReg a ((((s.reg a) &&& ~~~ rw) ||| (v &&& rw)) &&& ~~~ (v &&& d.w1c))

/-- A summary bit that software clears forgets the classes of its events (R393); those of the present tick set it again (R389). -/
def State.clearSummary (s : State) (a : Nat) (d : RegDef) (v : Word) : State :=
  let n := (a - Reg.gleaner.FSW0) / 4
  let s := s.plainWrite a d v
  (List.range 32).foldl (fun s i =>
    if bit v.toNat i then
      let now := s.fswTick.rd (32 * n + i)
      { s.setFld a i i (b2n (decide (now ≠ 0))) with fswCls := s.fswCls.wr (32 * n + i) now }
    else s) s

/-- TALLY_TIMEOUT (R477): 0 is refused. -/
def State.tallyTimeoutBy (s : State) (w : Writer) (v : Word) : State :=
  if v.field 15 0 = 0 then s.refuseNoFreeze .tally w Cause.FORMAT else s.setReg Reg.tally.TALLY_TIMEOUT (v &&& 0xFFFF#32)

/-- TALLY_TIMEOUT_WRITE. -/
def execTallyTimeoutWrite (w : Writer) (v : Word) (s : State) : Out :=
  .next (s.put w Reg.tally.TALLY_TIMEOUT (fun s => s.tallyTimeoutBy w v))

/-- GA_STATUS (R377, R380): ALERT and FW_FALLBACK are cleared by 1. -/
def State.gaugeStatus (s : State) (v : Word) : State :=
  { s with gauge := { s.gauge with alert := s.gauge.alert && !bit v.toNat 1, fwFallback := s.gauge.fwFallback && !bit v.toNat 6 } }

/-- WIN_BASE (R442): it applies after every earlier Memory window access has completed. -/
def State.winBaseBy (s : State) (v : Word) : State :=
  if s.windowBusy || !s.host.winHeld.isEmpty then { s with host := { s.host with winHeld := s.host.winHeld ++ [.base v] } }
  else s.setReg Reg.host.WIN_BASE (v &&& 0x3F#32)

/-- WIN_BASE. -/
def execWinBase (w : Writer) (v : Word) (s : State) : Out :=
  .next (s.put w Reg.host.WIN_BASE (fun s => s.winBaseBy v))

/-- OVER_FLOOR cleared also begins MAX_BEAT_PS anew (R42). A sample keeps the bit only where it comes after the clear: a clear that
follows a sample in the same tick clears it (assumption 114). -/
def State.beatMeas (s : State) (e : Nat) (v : Word) : State :=
  if bit v.toNat 31 then (s.setFld (Reg.engine.BEAT_MEAS e) 31 31 0).setFld (Reg.engine.BEAT_MEAS e) 27 16 0 else s

/-! ## Spring -/

/-- A user draw (R122, R123). -/
def State.userDraw (s : State) (cc : Bool) : State :=
  let put (s : State) (q : Quad) : State :=
    (((s.setReg Reg.spring.USER_OUT0 q.w0).setReg Reg.spring.USER_OUT1 q.w1).setReg Reg.spring.USER_OUT2 q.w2).setReg
      Reg.spring.USER_OUT3 q.w3
  match s.drawFault cc false with
  | some inj => (put s ⟨0, 0, 0, 0⟩).springFault inj
  | none =>
    let key : Quad := ⟨s.reg Reg.spring.USER_KEY0, s.reg Reg.spring.USER_KEY1, s.reg Reg.spring.USER_KEY2, s.reg Reg.spring.USER_KEY3⟩
    put s (springBlock (s.seed cc) key)

/-- USER_CTRL. -/
def State.userCtrl (s : State) (v : Word) : State :=
  let s := s.setReg Reg.spring.USER_CTRL (v &&& 0x2#32)
  if bit v.toNat 0 then s.userDraw (bit v.toNat 1) else s

/-- USER_CTRL_GO. -/
def execUserCtrlGo : Writer → Drawn Word → State → Out
  | w, ⟨v, r⟩, s => .next ((s.seedUpset r).put w Reg.spring.USER_CTRL (fun s => s.userCtrl (v ||| 1#32)))

/-! ## Barn sequencers -/

/-- SEQ_CTRL: CC_ARM set anew starts the catch-crop program at word 0 (R194), then START. -/
def State.seqCtrl (s : State) (b : Nat) (v : Word) : State :=
  let anew := bit v.toNat 1 && !s.regBit (Reg.barn.SEQ_CTRL b) 1
  let s := if anew then s.modBarn b (fun x => { x with ccPc := 0, ccLoops := [] }) else s
  let s := s.setReg (Reg.barn.SEQ_CTRL b) (v &&& 0x2#32)
  if bit v.toNat 0 then s.startBarn b else s

/-- Reserved bits of snapshot word `i` (R355). -/
def snapReserved (i : Nat) : Word :=
  if i = 0 then 0xFFF80000#32
  else if i < 13 then 0xFFF00000#32
  else if i < 19 then 0xFFFFE000#32
  else if i = 22 ∨ i = 26 then 0xFFC00000#32
  else if i < 27 then 0#32
  else 0xFFFFFFFF#32

/-- May word `i` of a snapshot hold `v` at barn `b`? -/
def State.snapWordOk (s : State) (b i : Nat) (v : Word) : Bool :=
  decide (v &&& snapReserved i = 0) && (decide (i ≠ 0) ||
    (decide (bit v.toNat 14 = (s.barn b).active) && !bit v.toNat 13 && decide (v.field 18 16 ≤ 6)))

/-- A write of SNAP_DATA (R355). -/
def State.snapWrite (s : State) (w : Writer) (b : Nat) (v : Word) : State :=
  let i := s.fld (Reg.barn.SNAP_CTRL b) 4 0
  if (s.barn b).phase ≠ .idle ∨ !s.snapWordOk b i v then s.refuse (.barn b) w Cause.FORMAT
  else
    (s.modBarn b (fun x => { x with staging := x.staging.wr i v })).setFld (Reg.barn.SNAP_CTRL b) 4 0 (i + 1)

/-- The snapshot that staging words spell. No word tells whether a table load of R129 is still due: a free value (assumption 3). -/
def snapOfWords (f : Nat → Word) (due : Bool) : Snap :=
  let w0 := f 0
  let half (i : Nat) : BitVec 118 :=
    BitVec.ofNat 118 ((f i).toNat + 2 ^ 32 * (f (i + 1)).toNat + 2 ^ 64 * (f (i + 2)).toNat + 2 ^ 96 * (f (i + 3)).toNat)
  let loops : List Loop := (List.range 6).map (fun k =>
    ⟨BitVec.ofNat 20 (f (7 + k)).toNat, BitVec.ofNat 20 (f (1 + k)).toNat, BitVec.ofNat 13 (f (13 + k)).toNat⟩)
  { pc := BitVec.ofNat 13 w0.toNat, ccBank := false, active := bit w0.toNat 14, swapped := bit w0.toNat 15,
    loops := loops.take (w0.field 18 16), wcfg0 := half 19, wcfg1 := half 23,
    tloadDue := due && decide (bits (half 19).toNat 93 92 ≠ 0), above := loops.drop (w0.field 18 16) }

/-- LOAD (R355): no SIGNAL of the loaded segment has been sent. -/
def State.snapLoad (s : State) (w : Writer) (b : Nat) : State :=
  let x := s.barn b
  if x.phase ≠ .idle ∨ !(List.range 32).all (fun i => s.snapWordOk b i (x.staging.rd i)) then s.refuse (.barn b) w Cause.FORMAT
  else
    let q := s.fresh
    q.2.modBarn b (fun x => { x with
      snap := snapOfWords (fun i => x.staging.rd i) (bit q.1.toNat 0), pendingRestart := true, suppress := 0, segSignals := 0 })

/-- SNAP_DATA_WRITE. -/
def execSnapDataWrite (w : Writer) (b : BarnId) (v : Word) (s : State) : Out :=
  .next (s.put w (Reg.barn.SNAP_DATA b) (fun s => s.snapWrite w b v))

/-- LOAD. -/
def execLoad (w : Writer) (b : BarnId) (s : State) : Out :=
  .next (s.put w (Reg.barn.SNAP_CTRL b) (fun s => s.snapLoad w b))

/-- SNAP_CTRL: WORD, then LOAD. -/
def State.snapCtrl (s : State) (w : Writer) (b : Nat) (v : Word) : State :=
  let s := s.setReg (Reg.barn.SNAP_CTRL b) (v &&& 0x1F#32)
  if bit v.toNat 31 then s.snapLoad w b else s

/-! ## Granary load windows (R188 to R190) -/

/-- Does offset `a` aim at a live bank? -/
def State.granLive (s : State) (a : Nat) : Bool :=
  match granSite a with
  | some q => s.bankLive q.1 q.2
  | none => false

/-- A write of any length to a load window: nothing of it is applied where it is refused (R188, R189). One to a bank under test
waits (R228). -/
def State.granWrite (s : State) (w : Writer) (a : Nat) (d : List Byte) : State :=
  if !w.isIn [.host, .mgmt, .fp 0] then s.refuse (.barn (pageOf a).instanceNo) w Cause.STATE_DISAGREE
  else match ((List.range d.length).map (fun i => a + i)).find? (fun x => s.granLive x) with
    | some x => s.refuse (.barn (pageOf x).instanceNo) w Cause.GRANARY_LIVE
    | none => s.granLand ⟨w, a, d⟩

/-- Is `a` in a Granary window? -/
def inGranary (a : Nat) : Bool :=
  match pageOf a with
  | .granary _ => true
  | _ => false

/-- GRANARY_WINDOW_WRITE. -/
def execGranaryWindowWrite : Writer → BitVec 26 → Sluiced (List Byte) → State → Out
  | w, a, ⟨d, p⟩, s =>
  if granaryDataOk d then
    .next (if inGranary a.toNat && decide (a.toNat % 4 = 0) then s.put w a.toNat (fun s => s.granWrite w a.toNat d) p else s)
  else .refused .illFormed

/-! ## A write to any offset -/

/-- A header register. -/
def State.headerWrite (s : State) (w : Writer) (pg : Page) (o : Nat) (v : Word) : State :=
  let a := pg.base + o
  if o = Reg.header.VERSION then (if pg = .global then s.negotiate (v.field 11 8) else s)
  else if o = Reg.header.ERR_STATUS then s.clearErr a v
  else if o = Reg.header.ERR_MASK then s.setReg a (v &&& 0x7#32)
  else if o = Reg.header.ERR_INJECT then s.injectBy w pg a v
  else if o = Reg.header.FREEZE then
    (match pageMaster pg with
      | some m => if bit v.toNat 0 then s.releaseBy w m else s
      | none => s)
  else s

/-- A register of the single blocks. -/
def State.blockWrite (s : State) (w : Writer) (a : Nat) (d : RegDef) (v : Word) : State :=
  if a = Reg.global.UNIT_OFFLINE then s.unitOfflineBy w v
  else if a = Reg.global.LOCK then (if bit v.toNat 0 then s.lockBy w else s)
  else if a = Reg.global.TUN_CTRL then s.tunCtrlBy v
  else if a = Reg.global.TUN_STATUS then (if bit v.toNat 8 then s.tunClear else s)
  else if a = Reg.global.START_CTRL then s.startCtrl w v
  else if Reg.gleaner.FSW0 ≤ a ∧ a ≤ Reg.gleaner.FSW3 then s.clearSummary a d v
  else if a = Reg.gleaner.SLICE_REQ then s.sliceReqBy w v
  else if a = Reg.tally.TX_CTRL then s.txCtrl w v
  else if a = Reg.tally.TALLY_TIMEOUT then s.tallyTimeoutBy w v
  else if a = Reg.gauge.GA_STATUS then s.gaugeStatus v
  else if a = Reg.gauge.FW_PACE then s.fwPaceBy w v
  else if a = Reg.gauge.BO_PACE then s.boPaceBy w v
  else if a = Reg.host.WIN_BASE then s.winBaseBy v
  else if a = Reg.spring.USER_CTRL then s.userCtrl v
  else s.plainWrite a d v

/-- A register of a page of many. -/
def State.unitWrite (s : State) (w : Writer) (pg : Page) (a : Nat) (d : RegDef) (v : Word) : State :=
  match pg with
  | .barn b =>
    if a = Reg.barn.SEQ_CTRL b then s.seqCtrl b v
    else if a = Reg.barn.SEG_RESTART b then (if bit v.toNat 0 then s.segGo b else s)
    else if a = Reg.barn.SNAP_CTRL b then s.snapCtrl w b v
    else if a = Reg.barn.SNAP_DATA b then s.snapWrite w b v
    else s.plainWrite a d v
  | .engine e => if a = Reg.engine.BEAT_MEAS e then s.beatMeas e v else s.plainWrite a d v
  | .flume f =>
    if a = Reg.flume.ARM_CTRL f then (if bit v.toNat 0 then s.armBy w f else s)
    else if a = Reg.flume.RESTART f then s.restartWrite w f v
    else s.plainWrite a d v
  | .ctl k => if a = Reg.ctl.THERM_CFG k then s.thermWrite w k v else s.plainWrite a d v
  | .mkv k =>
    if a = Reg.mkv.GEN_RELEASE k then (if bit v.toNat 0 then s.genRelease k else s)
    else if a = Reg.mkv.VERDICT_CTRL k then s.verdictCtrl k (v.field 1 0)
    else s.plainWrite a d v
  | .rep k => if a = Reg.rep.REPAIR_CTRL k then (if bit v.toNat 0 then s.repairGo w k else s) else s.plainWrite a d v
  | .fp k =>
    if a = Reg.fp.FP_CTRL k then (if bit v.toNat 0 then s.fpRestartBy w k else s)
    else if a = Reg.fp.WD_PERIOD k then s.wdPeriodBy w k v
    else if a = Reg.fp.WD_KICK k then (if bit v.toNat 0 then s.kickBy w k else s)
    else if k = 0 ∧ a = Reg.fp.ATT_CTRL 0 then (if bit v.toNat 0 then s.attGo w else s)
    else if k = 0 ∧ a = Reg.fp.SVN_COMMIT 0 then (if bit v.toNat 0 then s.svnCommitBy w else s)
    else s.plainWrite a d v
  | _ => s.blockWrite w a d v

/-- May the writer write a stack's repair page (R270)? -/
def repairPage (w : Writer) (pg : Page) : Bool :=
  match pg with
  | .rep _ => repairWriter w
  | _ => true

/-- The write of master `w` to an assigned or unassigned offset, a multiple of 4, that is served. -/
def State.writeReg (s : State) (w : Writer) (a : Nat) (v : Word) : State :=
  let pg := pageOf a
  if pg = .unassigned then s
  else if inGranary a then s.granWrite w a (leBytes 4 v.toNat)
  else if s.absentPage a then s.absentWrite w a
  else if !repairPage w pg then s.refuse pg w Cause.STATE_DISAGREE
  else match regDef? a with
    | none => s
    | some d =>
      if pageOffset a < 0x40 then s.headerWrite w pg (pageOffset a) v
      else if d.rws ≠ 0 then s.rwsBy w a v
      else s.unitWrite w pg a d v

/-- ERR_STATUS_CLEAR (R466): of the page that holds offset `a`. -/
def execErrStatusClear (w : Writer) (a : BitVec 26) (s : State) : Out :=
  .next (
    let e := (pageOf a.toNat).base + Reg.header.ERR_STATUS
    s.put w e (fun s => s.writeReg w e 0x80000000))

/-- ABSENT_PAGE_WRITE (R467). -/
def execAbsentPageWrite (w : Writer) (a : BitVec 26) (_v : Word) (s : State) : Out :=
  .next (if s.absentPage a.toNat then s.put w a.toNat (fun s => s.absentWrite w a.toNat) else s)

end Sys2Proof.Machine
end

