-- ==== Sys2Proof/Machine/Host.lean ====
section
/-! DEFINITION. The host link and its windows (R437 to R449), tunnelled windows at the head and at the target (R338, R343 to
R347), register reads with an effect of their own. -/

namespace Sys2Proof.Machine

/-! ## Completions -/

/-- A completion to the host, while its link is up. -/
def State.complete (s : State) (m : HostMsg) : State :=
  if s.host.linkUp then { s with host := { s.host with out := s.host.out ++ [m] } } else s

/-- Completer Abort, counted in HOST_ERR as it is sent (R449). -/
def State.completerAbort (s : State) : State :=
  if s.host.linkUp then
    let s := s.complete .completerAbort
    { s with host := { s.host with completerAborts := satInc 16 s.host.completerAborts } }
  else s

/-- CPL for a tunnelled request (R345). A request that came in direct mode is answered on the port it came by, in direct mode. -/
def State.answerTun (s : State) (r : TunReply) (status : Nat) (d : List Byte) : State :=
  if r.dst = 16383 then s.queuePacket r.port (mkPacket 3 4 0 false s.moduleId 16383 0 r.tag (status % 8) d)
  else (s.sendCpl r.src r.tag status d).1

/-! ## Device memory as master 0x00 -/

/-- The answer to a memory access: data for a read that went well, no completion for the host's posted write. -/
def State.answerMem (s : State) (reply : Option TunReply) (isRead ok : Bool) (d : List Byte) : State :=
  match reply with
  | some r => s.answerTun r (if ok then 0 else 2) (if ok then d else [])
  | none => if !isRead then s else if ok then s.complete (.readData d) else s.completerAbort

/-- The access is made (R241, R245, R261). -/
def State.hostMem (s : State) (a : Nat) (acc : MemAccess) (reply : Option TunReply) : State :=
  match acc with
  | .read _ n =>
    let r := s.memRead Master.host a n
    r.1.answerMem reply true r.2.isSome (r.2.getD [])
  | .write _ d en =>
    let r := s.memWriteMasked Master.host a d en
    r.1.answerMem reply false r.2 []

/-- Do two accesses meet in a line? -/
def HostWait.meets (x y : HostWait) : Bool :=
  decide (x.addr / 64 * 64 < y.addr + y.acc.size) && decide (y.addr / 64 * 64 < x.addr + x.acc.size)

/-- The access is made, or waits: for its stack (R268), behind an earlier access to one of its lines (R241), or for a tag (R286). -/
def State.hostTry (s : State) (x : HostWait) : State :=
  let wait (s : State) : State := { s with host := { s.host with waiting := s.host.waiting ++ [x] } }
  let l := memPools x.addr x.acc.size
  if s.memWaits x.addr x.acc.size || s.host.waiting.any (fun y => y.meets x) then wait s
  else if s.tagsReady Master.host l then s.withPools Master.host l (fun s => s.hostMem x.addr x.acc x.reply)
  else wait (s.joinPools Master.host l)

/-- An access of the host, or of a tunnel. -/
def State.hostMemOrWait (s : State) (a : Nat) (acc : MemAccess) (reply : Option TunReply) : State := s.hostTry ⟨a, acc, s.time, reply⟩

/-- The accesses that wait are tried again, in their order. -/
def State.serveWaiting (s : State) : State :=
  s.host.waiting.foldl (fun s x => s.hostTry x) { s with host := { s.host with waiting := [] } }

/-- Has an access waited 1 ms on a stack at T3 (R268)? -/
def State.waitExpired (s : State) (x : HostWait) : Bool :=
  reachedMs (s.time - x.since) 1
    && (linesOf x.addr x.acc.size).any (fun l => s.regBit (Reg.ctl.MEM_STATUS (addrStack (64 * l))) 4)

/-- HOST_WINDOW_ACCESS_WAIT_EXPIRY (R268). -/
def execHostWindowAccessWaitExpiry (s : State) : Out :=
  .next (match s.host.waiting.find? (fun x => s.waitExpired x) with
    | none => s
    | some x =>
      let s := { s with host := { s.host with waiting := s.host.waiting.erase x } }
      s.answerMem x.reply x.acc.isRead false [])

/-! ## The tunnel at the head (R344, R346, R347) -/

def State.tunNode (s : State) : Nat := s.fld Reg.global.TUN_CTRL 13 0
def State.tunDirect (s : State) : Bool := s.regBit Reg.global.TUN_CTRL 18

/-- A tunnelled access has failed: HOST_ABORT, and the tunnel aborts until ERR is cleared. -/
def State.tunFail (s : State) (isRead : Bool) (status : Nat) : State :=
  let s := s.report .global { cause := Cause.HOST_ABORT, cls := Cls.contained, master := Master.host }
  let s := { s with host := { s.host with tunErr := true, tunLast := status } }
  if isRead then s.completerAbort else s

/-- The lowest free tunnel tag. -/
def State.tunTag (s : State) : Nat := ((List.range 64).find? (fun t => s.host.tun.all (fun x => decide (x.tag ≠ t)))).getD 0

/-- Is a request of this kind a read? -/
def TunReq.isRead (r : TunReq) : Bool := decide (r.kind % 2 = 1)

/-- A tunnelled read or write of the Memory window (R345)? -/
def TunReq.ofMem (r : TunReq) : Bool := decide (2 ≤ r.kind)

/-- The request's packet leaves for its node, or straight for the neighbour; a route that names no port is STATUS 1. -/
def State.tunSend (s : State) (r : TunReq) : State :=
  let tag := s.tunTag
  let dst := if s.tunDirect then 16383 else s.tunNode
  let port := if s.tunDirect then (s, some (s.fld Reg.global.TUN_CTRL 23 19)) else s.routeBy Master.host s.tunMap s.tunNode
  let s := port.1
  match port.2 with
  | none => s.tunFail r.isRead 1
  | some q =>
    let w : TunWait := { tag := tag, isRead := r.isRead, ofMem := r.ofMem, take := r.take, since := s.time }
    let s := { s with host := { s.host with tun := s.host.tun ++ [w] } }
    s.queuePacket q (mkPacket 3 r.kind 0 false s.moduleId dst 0 tag (r.addr % 2 ^ 42 + 2 ^ 42 * (r.rdlen % 64)) r.data)

/-- An access made while the tunnel aborts (R347). -/
def State.tunRefuse (s : State) (r : TunReq) : State := if r.isRead then s.completerAbort else s

/-- What waits at the head goes on as far as it can: at most 64 outstanding, the route table in memory that answers, TUN_CTRL once none
is. -/
def State.tunPump (s : State) : Nat → State
  | 0 => s
  | n + 1 =>
    match s.host.tunHeld with
    | [] => s
    | x :: rest =>
      let t := { s with host := { s.host with tunHeld := rest } }
      match x with
      | .ctrl v => if s.host.tun.isEmpty then State.tunPump (t.setReg Reg.global.TUN_CTRL (v &&& 0xFFFFFF#32)) n else s
      | .req r =>
        if s.host.tunErr then State.tunPump (t.tunRefuse r) n
        else if s.host.tun.length < 64 ∧ (s.tunDirect ∨ !s.routeWaits s.tunMap s.tunNode) then State.tunPump (t.tunSend r) n
        else s

/-- Everything that waits at the head may go on. -/
def State.tunGo (s : State) : State := s.tunPump (s.host.tunHeld.length + 1)

/-- A request takes its place behind those that wait. -/
def State.tunIssue (s : State) (r : TunReq) : State :=
  ({ s with host := { s.host with tunHeld := s.host.tunHeld ++ [.req r] } } : State).tunGo

/-- Runs of enabled bytes: offset and bytes of each. -/
def enabledRuns (o : Nat) : List Byte → List Bool → List (Nat × List Byte)
  | [], _ => []
  | b :: bs, en =>
    let rest := enabledRuns (o + 1) bs en.tail
    if en.headD true then
      match rest with
      | (o', d) :: more => if o' = o + 1 then (o, b :: d) :: more else (o, [b]) :: rest
      | [] => [(o, [b])]
    else rest

/-- Pieces of 4 to 256 bytes, each a multiple of 4 (R306, R345): the last bytes of a run go in a piece that overlaps the one
before. A run of fewer than 4 bytes fits no packet. -/
def tunPieces : Nat → Nat → List Byte → List (Nat × List Byte)
  | 0, _, _ => []
  | n + 1, o, d =>
    if d.length < 4 then []
    else if d.length ≤ 256 then
      (if d.length % 4 = 0 then [(o, d)]
       else [(o, d.take (d.length / 4 * 4)), (o + d.length - 4, d.drop (d.length - 4))])
    else (o, d.take 252) :: tunPieces n (o + 252) (d.drop 252)

/-- A Memory window access as tunnelled requests, at device address `a`. -/
def tunMem (a : Nat) (acc : MemAccess) : List TunReq :=
  match acc with
  | .read _ n => (List.range ((n + 255) / 256)).map (fun i =>
      let m := min 256 (n - 256 * i)
      { kind := 3, addr := a + 256 * i, rdlen := (m + 3) / 4 - 1, take := m, data := [] })
  | .write _ d en => ((enabledRuns 0 d en).flatMap (fun x => tunPieces (x.2.length / 252 + 1) x.1 x.2)).map
      (fun x => { kind := 2, addr := a + x.1, rdlen := 0, take := 0, data := x.2 })

/-- The target's offset of a head Register window offset (R344); none where the head serves it itself. -/
def State.tunOffset (s : State) (a : Nat) : Option Nat :=
  if !bit s.tunWord.toNat 14 then none
  else if 0x8000 ≤ a ∧ a < 0xF000 then some (a - 0x8000)
  else if 0x10000 ≤ a then some a
  else none

/-- The requests of a host access that the tunnel carries. -/
def State.tunReqs (s : State) : TunnelOp → List TunReq
  | .regWrite off d => match s.tunOffset off.toNat with
    | some a => [{ kind := 0, addr := a, rdlen := 0, take := 0, data := d }]
    | none => []
  | .regRead off n => match s.tunOffset off.toNat with
    | some a => [{ kind := 1, addr := a, rdlen := n - 1, take := 4 * n, data := [] }]
    | none => []
  | .memWrite off d => if s.memTunnelled then tunMem (s.windowAddr off.toNat) (.write off d []) else []
  | .memRead off n => if s.memTunnelled then tunMem (s.windowAddr off.toNat) (.read off (4 * n)) else []

/-- Bytes that a host read asks for; 0 for a write. -/
def TunnelOp.readBytes : TunnelOp → Nat
  | .regRead _ n | .memRead _ n => 4 * n
  | _ => 0

/-- The Memory window access that an operation is. -/
def TunnelOp.window : TunnelOp → Option MemAccess
  | .memWrite off d => some (.write off d [])
  | .memRead off n => some (.read off (4 * n))
  | _ => none

/-- A Memory window access made after a WIN_BASE write that waits takes its place behind it (R442). -/
def State.windowWait (s : State) (acc : MemAccess) : State :=
  { s with host := { s.host with winHeld := s.host.winHeld ++ [.access acc s.memTunnelled] } }

/-- A host access in D3hot (R440) or at a frozen window (R401, R445): none is made. -/
def State.closedWindow (s : State) (n : Nat) : State :=
  if n = 0 then s
  else if s.host.d3hot then s.complete .unsupportedRequest
  else s.complete (.readData (List.replicate n 0xFF))

/-- A read of `n` bytes by a host that has not negotiated returns zeros (R448). -/
def State.unnegotiated (s : State) (n : Nat) : State := if n = 0 then s else s.complete (.readData (List.replicate n 0))

/-- Is the host's access turned away: D3hot, or a frozen window? -/
def State.windowClosed (s : State) : Bool := s.host.d3hot || s.frozen Master.host

/-- TUNNEL_REQUEST. -/
def State.tunnelReq (s : State) (op : TunnelOp) (p : SluiceParity) : State :=
  if !s.host.linkUp ∨ !s.up ∨ (s.tunReqs op).isEmpty then s
  else if s.windowClosed then s.closedWindow (TunnelOp.readBytes op)
  else
    let q := s.pcieSluice p
    if q.2 then (if TunnelOp.readBytes op = 0 then q.1 else q.1.completerAbort)
    else match TunnelOp.window op, q.1.host.winHeld with
      | some acc, _ :: _ => q.1.windowWait acc
      | _, _ => (q.1.tunReqs op).foldl (fun s r => s.tunIssue r) q.1

/-- TUNNEL_REQUEST. -/
def execTunnelRequest : Sluiced TunnelOp → State → Out
  | ⟨op, p⟩, s =>
  if op.wellFormed then .next (s.tunnelReq op p) else .refused .illFormed

/-- CPL at the head: the tag is free, the access completes or fails (R346, R347). -/
def State.cplIn (s : State) (p : Nat) (k : Packet) : State :=
  let s := s.freePacket p k
  match s.host.tun.find? (fun x => decide (x.tag = k.fields.tag)) with
  | none => s
  | some x =>
    let s := { s with host := { s.host with tun := s.host.tun.erase x } }
    let st := bits k.fields.rest 2 0
    let s := if st ≠ 0 then s.tunFail x.isRead st
      else if x.isRead then s.complete (.readData (k.payload.take x.take)) else s
    s.tunGo

/-- CPL. -/
def execCpl (p : PortId) (s : State) : Out := .next (s.onPacket p 3 4 (fun _ => false) (fun _ => []) (fun s k => s.cplIn p k))

/-- TUN_TMO (R347): LAST_STATUS 7. -/
def execTunTmo (tag : Fin 64) (s : State) : Out :=
  .next (match s.host.tun.find? (fun x => decide (x.tag = tag.val)) with
    | none => s
    | some x =>
      if reachedUs (s.time - x.since) (s.fld Reg.global.TUN_TMO 23 0) then
        let s := { s with host := { s.host with tun := s.host.tun.erase x } }
        (s.tunFail x.isRead 7).tunGo
      else s)

/-! ## The tunnel at the target -/

/-- The reply data of a request packet. -/
def tunReply (p : Nat) (k : Packet) : TunReply := ⟨p, k.fields.src, k.fields.dst, k.fields.tag⟩

/-- A register write as master 0x00 by this module's own rules (R344). -/
def State.tunWrite (s : State) (a : Nat) (v : Word) : State := if s.serves .host a then s.writeReg .host a v else s

/-- A register read as master 0x00: a frozen window reads all ones but for its own FREEZE (R401). -/
def State.hostWord (s : State) (a : Nat) : Word × State :=
  if s.frozen Master.host ∧ a ≠ Page.host.base + Reg.header.FREEZE then (0xFFFFFFFF, s) else (s.readReg a, s.readEffect a)

/-- `n` words from offset `a` on. -/
def State.hostWords (s : State) (a : Nat) : Nat → List Byte × State
  | 0 => ([], s)
  | n + 1 =>
    let q := s.hostWord a
    let r := State.hostWords q.2 (a + 4) n
    (leBytes 4 q.1.toNat ++ r.1, r.2)

/-- Offsets of the words of a run. -/
def wordOffsets (a n : Nat) : List Nat := (List.range (n / 4)).map (fun i => a + 4 * i)

/-- RWR: 32-bit writes in ascending address. -/
def State.rwrIn (s : State) (p : Nat) (k : Packet) : State :=
  let a := k.fields.tunAddr
  let s := (wordOffsets a k.payload.length).foldl (fun s x => s.tunWrite x (wordAt k.payload (x - a))) s
  (s.answerTun (tunReply p k) 0 []).freePacket p k

/-- RRD. -/
def State.rrdIn (s : State) (p : Nat) (k : Packet) : State :=
  let r := s.hostWords k.fields.tunAddr (k.fields.rdlen + 1)
  (r.2.answerTun (tunReply p k) 0 r.1).freePacket p k

/-- MWR and MRD: a frozen or unnegotiated window as R401 and R448 give. -/
def State.memIn (s : State) (p : Nat) (k : Packet) (acc : MemAccess) : State :=
  let r := tunReply p k
  let s := s.freePacket p k
  if s.frozen Master.host then s.answerTun r 0 (if acc.isRead then List.replicate acc.size 0xFF else [])
  else if s.host.accMaj ≠ 1 then s.answerTun r 0 (if acc.isRead then List.replicate acc.size 0 else [])
  else s.hostMemOrWait k.fields.tunAddr acc (some r)

/-- RWR. -/
def execRwr (p : PortId) (s : State) : Out := .next (s.onPacket p 3 0 (fun _ => false) (fun _ => []) (fun s k => s.rwrIn p k))
/-- RRD. -/
def execRrd (p : PortId) (s : State) : Out := .next (s.onPacket p 3 1 (fun _ => false) (fun _ => []) (fun s k => s.rrdIn p k))
/-- MWR. -/
def execMwr (p : PortId) (s : State) : Out :=
  .next (s.onPacket p 3 2 (fun _ => false) (fun _ => []) (fun s k => s.memIn p k (.write 0 k.payload [])))
/-- MRD. -/
def execMrd (p : PortId) (s : State) : Out :=
  .next (s.onPacket p 3 3 (fun _ => false) (fun _ => []) (fun s k => s.memIn p k (.read 0 (4 * (k.fields.rdlen + 1)))))

/-! ## The Memory window (R442, R445, R448) -/

/-- A Memory window access past its sluice goes to the target's memory, or to the module's own. -/
def State.windowGo (s : State) (acc : MemAccess) (tunnelled : Bool) : State :=
  if tunnelled then (tunMem (s.windowAddr acc.offset) acc).foldl (fun s r => s.tunIssue r) s
  else if s.fatal then s.closedWindow (if acc.isRead then acc.size else 0)
  else s.hostMemOrWait (s.windowAddr acc.offset) acc none

/-- It goes there now, or in its turn. -/
def State.windowTurn (s : State) (acc : MemAccess) : State :=
  if s.host.winHeld.isEmpty then s.windowGo acc s.memTunnelled else s.windowWait acc

/-- What waits behind Memory window accesses goes on as far as it can (R442). -/
def State.windowPump (s : State) : Nat → State
  | 0 => s
  | n + 1 =>
    match s.host.winHeld with
    | [] => s
    | x :: rest =>
      let t := { s with host := { s.host with winHeld := rest } }
      match x with
      | .base v => if s.windowBusy then s else State.windowPump (t.setReg Reg.host.WIN_BASE (v &&& 0x3F#32)) n
      | .access acc tunnelled => State.windowPump (t.windowGo acc tunnelled) n

/-- Everything that waits there may go on. -/
def State.serveWindow (s : State) : State := s.windowPump (s.host.winHeld.length + 1)

/-- A Memory window access. -/
def State.windowAccess (s : State) (acc : MemAccess) (p : SluiceParity) : State :=
  let n := if acc.isRead then acc.size else 0
  if !s.host.linkUp ∨ !s.up then s
  else if s.windowClosed then s.closedWindow n
  else if !s.memTunnelled ∧ s.host.accMaj ≠ 1 then s.unnegotiated n
  else
    let q := s.pcieSluice p
    if q.2 then q.1.answerMem none acc.isRead false [] else q.1.windowTurn acc

/-- MEMORY_WINDOW_ACCESS. -/
def execMemoryWindowAccess (acc : MemAccess) (p : SluiceParity) (s : State) : Out :=
  if !acc.wellFormed then .refused .illFormed
  else if 2 ^ 36 < acc.offset + acc.size then .fault .windowOverrun
  else .next (s.windowAccess acc p)

/-! ## The Register window -/

/-- A Register window access that R441 does not accept. -/
def State.refuseAccess (s : State) (isWrite : Bool) : State :=
  if !s.host.linkUp ∨ !s.up then s
  else
    let s := if s.host.d3hot then s else { s with host := { s.host with badAccess := satInc 16 s.host.badAccess } }
    if isWrite then s else s.complete .unsupportedRequest

/-- A configuration read (R439): Request Retry Status while the module does not run; else a word of a configuration space that the spec
does not give, a free value (assumptions 3 and 115). -/
def State.configRead (s : State) : State :=
  if !s.up then s.complete .retryStatus
  else
    let q := s.fresh
    q.2.complete (.readData (leBytes 4 q.1.toNat))

/-- BAD_ACCESS. -/
def execBadAccess (a : OtherAccess) (s : State) : Out :=
  .next (match a with
    | .read => s.refuseAccess false
    | .write => s.refuseAccess true
    | .configRead => s.configRead)

/-- The words of a register write. -/
def regWords (a : Nat) (v : RegData) : List (Nat × Word) :=
  match v.hi with
  | none => [(a, v.lo)]
  | some h => [(a, v.lo), (a + 4, h)]

/-- One of them, where it is served. -/
def State.writeWord (s : State) (w : Writer) (x : Nat × Word) : State := if s.takesWrite w x.1 then s.writeReg w x.1 x.2 else s

/-- REGISTER_WRITE at an aligned offset; the host's may be one the tunnel carries. An 8-byte write is two of 4 bytes (R441). -/
def State.registerWrite (s : State) (w : Writer) (a : Nat) (v : RegData) (p : SluiceParity) : State :=
  let l := regWords a v
  if w = .host ∧ (s.tunOffset a).isSome then
    s.tunnelReq (.regWrite (BitVec.ofNat 26 a) (l.flatMap (fun x => leBytes 4 x.2.toNat))) p
  else s.put w a (fun s => l.foldl (fun s x => s.writeWord w x) s) p

/-- Is the access aligned (R441)? -/
def regAligned (a : Nat) (wide : Bool) : Bool := decide (a % (if wide then 8 else 4) = 0)

/-- REGISTER_WRITE. A host's write that is not aligned is an access of R441 that is not accepted. -/
def execRegisterWrite : Writer → BitVec 26 → Sluiced RegData → State → Out
  | w, a, ⟨v, p⟩, s =>
  .next (
    if regAligned a.toNat v.hi.isSome then s.registerWrite w a.toNat v p
    else if w = .host then s.refuseAccess true
    else s)

/-- Does no table name the address (R7)? -/
def unassignedAddr (a : Nat) : Bool :=
  match pageOf a with
  | .unassigned => true
  | .granary _ | .fpLog _ => false
  | _ => (regDef? a).isNone

/-- A register read of the management port as master 0x01 (R401): frozen, it reads all ones but for its own FREEZE; a page
without power gives a free value (assumption 3). -/
def State.mgmtWord (s : State) (a : Nat) : Word × State :=
  if s.frozen Master.mgmt ∧ a ≠ Page.mgmt.base + Reg.header.FREEZE then (0xFFFFFFFF, s)
  else if s.mgmtReads a then (s.readReg a, s.readEffect a)
  else if unassignedAddr a then (0, s)
  else s.fresh

/-- What a master's read of a register gives and does: served as R401 and R440 say, each past its sluice; the host's goes to its link,
the management port's answer is a completion. A processor takes the value into its own memory. -/
def State.readBy (s : State) (w : Writer) (a : Nat) (p : SluiceParity) (wide : Bool) : State :=
  match w with
  | .host =>
    if !s.host.linkUp ∨ !s.up ∨ s.regTunnelled a then s
    else if s.host.d3hot then s.complete .unsupportedRequest
    else if !regAligned a wide then s.refuseAccess false
    else
      let c := s.pcieSluice p
      if c.2 then c.1.completerAbort
      else
        let q := c.1.hostWords a (if wide then 2 else 1)
        q.2.complete (.readData q.1)
  | .mgmt =>
    if !s.module.mgmtOn then s
    else
      let c := s.mgmtSluice p
      let q := if c.2 then c.1.fresh else c.1.mgmtWord a
      q.2.answer 0 [q.1]
  | .fp k => if !s.up ∨ s.frozen (Master.fp k) ∨ (s.fp k).state ≠ .running then s else s.readEffect a

/-- WORK_BEATS_LO (R43). -/
def execWorkBeatsLo : Writer → RegRead EngId → State → Out
  | w, ⟨e, p, wide⟩, s => .next (s.readBy w (Reg.engine.WORK_BEATS_LO e) p wide)
/-- PACE_BEATS_LO (R43). -/
def execPaceBeatsLo : Writer → RegRead EngId → State → Out
  | w, ⟨e, p, wide⟩, s => .next (s.readBy w (Reg.engine.PACE_BEATS_LO e) p wide)
/-- DONE_LO (R296). -/
def execDoneLo : Writer → RegRead FlumeId → State → Out
  | w, ⟨f, p, wide⟩, s => .next (s.readBy w (Reg.flume.DONE_LO f) p wide)
/-- FL_BYTES_LO (R296). -/
def execFlBytesLo : Writer → RegRead FlumeId → State → Out
  | w, ⟨f, p, wide⟩, s => .next (s.readBy w (Reg.flume.FL_BYTES_LO f) p wide)
/-- GL_TIME_LO (R394). -/
def execGlTimeLo : RegRead Writer → State → Out
  | ⟨w, p, wide⟩, s => .next (s.readBy w Reg.gleaner.GL_TIME_LO p wide)
/-- SNAP_DATA_READ (R355). -/
def execSnapDataRead : Writer → RegRead BarnId → State → Out
  | w, ⟨b, p, wide⟩, s => .next (s.readBy w (Reg.barn.SNAP_DATA b) p wide)

/-! ## The Bell window (R443, R445, R448) -/

/-- A write to the MSI-X table: a vector unmasked with its pending bit set sends one message (R444). -/
def State.msixWrite (s : State) (k : Nat) (v : Word) : State :=
  let s := { s with host := { s.host with msix := CMap.set msixDefault s.host.msix k v } }
  s.sendPending (k / 4)

/-- A write: a doorbell starts its barn as START does; the MSI-X table takes its words; other offsets ignore it. -/
def State.bellWrite (s : State) (o : Nat) (v : Word) (p : SluiceParity) : State :=
  let q := s.writerSluice .host p
  let s := q.1
  if q.2 ∨ !s.bellOpen ∨ o % 4 ≠ 0 then s
  else if o < 0x20 then s.startBarn (o / 4)
  else if 0x8000 ≤ o ∧ o < 0x8400 then s.msixWrite ((o - 0x8000) / 4) v
  else s

/-- What offset `o` reads as, a multiple of 4. -/
def State.bellWord (s : State) (o : Nat) : Word :=
  if 0x8000 ≤ o ∧ o < 0x8400 then CMap.get msixDefault s.host.msix ((o - 0x8000) / 4)
  else if o = 0x9000 then BitVec.ofNat 32 s.host.pba.toNat
  else if o = 0x9004 then BitVec.ofNat 32 (s.host.pba.toNat / 2 ^ 32)
  else 0

/-- A read: Unsupported Request in D3hot (R440), all ones at a frozen window (R445), zeros before negotiation (R448). -/
def State.bellRead (s : State) (o : Nat) (p : SluiceParity) : State :=
  if !s.host.linkUp ∨ !s.up then s
  else if s.windowClosed then s.closedWindow 4
  else if s.host.accMaj ≠ 1 then s.unnegotiated 4
  else
    let q := s.pcieSluice p
    if q.2 then q.1.completerAbort
    else if q.1.fatal then q.1.closedWindow 4
    else q.1.complete (.readData (leBytes 4 (q.1.bellWord (o / 4 * 4)).toNat))

/-- BELL. -/
def execBell : BitVec 16 → Sluiced BellAccess → State → Out
  | off, ⟨.write v, p⟩, s => .next (s.bellWrite off.toNat v p)
  | off, ⟨.read, p⟩, s => .next (s.bellRead off.toNat p)

/-! ## MSI-X, link and PCIe resets -/

/-- MSIX_UNMASK (R444): the mask bit of the vector's control word is cleared. -/
def execMsixUnmask (v : Fin 64) (s : State) : Out :=
  .next (
    let k := 4 * v.val + 3
    if s.bellOpen then s.msixWrite k (CMap.get msixDefault s.host.msix k &&& ~~~ 1#32) else s)

/-- DL_DOWN (R439). -/
def execDlDown (s : State) : Out := .next s.pcieDown

/-- PERST_N or Hot Reset: the PCIe side resets; a start begins unless one runs (R439). -/
def State.pcieReset (s : State) : State :=
  let s := s.pcieDown
  let s := { s with host := { s.host with d3hot := false, atsEn := false, priEn := false, atc := [], inval := [] } }
  s.requestStart true

/-- PERST_N. -/
def execPerstN (s : State) : Out := .next s.pcieReset
/-- HOT_RESET. -/
def execHotReset (s : State) : Out := .next s.pcieReset

/-- Does the Flume hold a host tag (R285)? -/
def State.holdsHostTag (s : State) (f : Nat) : Bool := (s.flume f).tags.any (fun h => decide (h.pool = .host) && decide (0 < h.n))

/-- Registers of the host page at reset; FROZEN stands while the module is Fatal (R397). -/
def State.resetHostPage (s : State) : State :=
  let f := Page.host.base + Reg.header.FREEZE
  let keep := if s.fatal then s.reg f else 0
  ({ s with regs := s.regs.filter (fun e => decide (pageOf e.1 ≠ .host)) } : State).setReg f keep

/-- Function Level Reset (R439): the host interface page, the window bases, the MSI-X table, negotiation. -/
def State.flr (s : State) : State :=
  let s := (List.range 32).foldl (fun s f => if s.holdsHostTag f then s.flumeAbort f { cause := Cause.HOST_ABORT } else s) s
  let s := s.resetHostPage
  { s with host := { s.host with
      d3hot := false, atsEn := false, priEn := false, atc := [], inval := [], accMaj := 0, reqMaj := 0, msix := [], pba := 0,
      badAccess := 0, completerAborts := 0, waiting := s.host.waiting.filter (fun x => x.reply.isSome), winHeld := [] } }

/-- FUNCTION_LEVEL_RESET. -/
def execFunctionLevelReset (s : State) : Out := .next (if s.host.linkUp then s.flr else s)

/-- D3HOT_ENTRY (R440). -/
def execD3hotEntry (s : State) : Out :=
  .next (if s.host.linkUp then { s with host := { s.host with d3hot := true } } else s)

/-- D0_RETURN (R440): the messages held are sent. -/
def execD0Return (s : State) : Out :=
  .next (
    let s := { s with host := { s.host with d3hot := false } }
    s.sendAllPending)

/-- PCIE_LINK_UP (R437, R454, R457): one of six rates and of five widths; not with PCIE_EN = 0, nor in TEST, STOPPED or without power. The
clock is there again. What the host enables on the link comes with it (assumption 116). -/
def execPcieLinkUp (rate : Fin 6) (width : Fin 5) (mode : LinkMode) (s : State) : Out :=
  .next (
    if !s.module.straps.pcieEn ∨ !(s.up ∨ s.module.power = .start) then s
    else
      let s := { s with
        module := { s.module with ref100 := true }
        host := { s.host with linkUp := true, rate := rate.val + 1, width := 2 ^ width.val, flit := mode.flit, atsEn := mode.ats
                              priEn := mode.pri } }
      s.sendAllPending)

/-- REFCLK_100_LOSS (R457). -/
def execRefclk100Loss (s : State) : Out :=
  .next (
    let s := { s with module := { s.module with ref100 := false } }
    s.pcieDown)

end Sys2Proof.Machine
end

