-- ==== Sys2Proof/Machine/Flits.lean ====
section
/-! DEFINITION. Flits received and sent (R300 to R304): the port's sluice, with what a lost entry carried (R399), sequence numbers,
and the packets of a flit. -/

namespace Sys2Proof.Machine

/-! ## A data entry lost in the port's sluice (R399) -/

/-- The Flume whose request a bulk packet answers. -/
def State.replyFlume (s : State) (p : Nat) (k : Packet) : Option (Nat × BulkWait) :=
  if k.fields.cls = 2 ∧ k.fields.dst = s.moduleId then s.bulkOf p k.fields.tag else none

/-- Whose access a packet carries: a Flume's reply, a tunnelled access of master 0x00, or the port's own. -/
def State.packetMaster (s : State) (p : Nat) (k : Packet) : Nat :=
  if k.fields.cls = 3 then Master.host
  else match s.replyFlume p k with
    | some (f, _) => Master.flume f
    | none => Master.port p

/-- The tunnelled access of a tag fails. -/
def State.lostAccess (s : State) (tag : Nat) : State :=
  match s.host.tun.find? (fun x => decide (x.tag = tag)) with
  | some x => (({ s with host := { s.host with tun := s.host.tun.erase x } } : State).tunFail x.isRead 2).tunGo
  | none => s

/-- A tunnelled request that is lost is answered as an uncorrectable access; a lost answer fails its access. -/
def State.lostTunnel (s : State) (p : Nat) (k : Packet) : State :=
  if k.fields.kind < 4 then s.answerTun (tunReply p k) 2 [] else s.lostAccess k.fields.tag

/-- The packet of an entry that failed parity: its buffer is free, nothing of it is applied, and the access that it carries is
uncorrectable: a Flume's task aborts, a tunnelled access fails, a row of this module's step is a fault of the step (assumption 18). -/
def State.lostPacket (s : State) (p : Nat) (k : Packet) (inj : Bool) : State :=
  let s := (s.takeCredit p k).freePacket p k
  if !s.forThis k then s
  else if k.fields.cls = 3 then s.lostTunnel p k
  else match s.replyFlume p k with
    | some (f, w) => ((s.freeTag p 2 k.fields.tag).bulkFails f w Cause.MEM_UNCORRECTABLE inj).landHeld f (s.flume f).bulk.length
    | none =>
      if k.fields.cls = 0 ∧ !s.mustDiscard p k then s.stepFault Cause.MEM_UNCORRECTABLE (some k.fields.job) else s

/-- The port's sluice (R341, R399), crossed by an access of master `m`: whether a data entry is lost, and by injection. -/
def State.portSluice (s : State) (p m : Nat) (data : Bool) (par : SluiceParity) : State × Bool × Bool :=
  let q := if data || decide (par = .badCredit) then s.sluiceParity par m else (s, false)
  if q.2 || !data then (q.1, q.2, false)
  else
    let r := q.1.sluiceInject (Reg.port.page p) 3 m
    (r.1, r.2, r.2)

/-! ## Flits -/

/-- A sequenced flit in order: symbols, then its packets; a data entry lost takes the first packet with it. -/
def State.flitTaken (s : State) (p : Nat) (f : Flit) (par : SluiceParity) : State :=
  let seq := (s.port p).rxExpect
  let s := (s.modPort p (fun x => { x with rxExpect := seq + 1, nakSent := false })).linkSym p Sym.ACK (symAck seq)
  let s := s.symsIn p f.body
  let r := takePackets packetsPerFlit ((s.port p).rxBuf ++ f.body.take 616)
  let s := s.modPort p (fun x => { x with rxBuf := r.2 })
  match r.1 with
  | [] => (s.portSluice p (Master.port p) false par).1
  | k :: ks =>
    let q := s.portSluice p (s.packetMaster p k) true par
    let s := if q.2.1 then q.1.lostPacket p k q.2.2 else q.1.packetIn p k
    ks.foldl (fun s k => s.packetIn p k) s

/-- A flit arrives on an active lane (R302); a codeword that the lane corrected is counted (R298). -/
def State.flitIn (s : State) (p : Nat) (f : Flit) (par : SluiceParity) : State :=
  let x := s.port p
  if x.link ≠ .up ∨ !bit x.lanes.toNat f.lane.val then s
  else
    let s := match f.fec with
      | .corrected _ => s.incFld (Reg.port.FEC_CE p) 31 0
      | _ => s
    if f.fec = .uncorrectable ∨ leNat ((f.body.drop 636).take 4) ≠ (flitCrc f.tag f.body).toNat then s.flitFailed p f.lane.val
    else
      let s := s.modPort p (fun x => { x with lastRx := s.time })
      let ftype := bits f.tag.toNat 1 0
      let seq : BitVec 12 := BitVec.ofNat 12 (bits f.tag.toNat 13 2)
      if ftype = 1 then
        (if seq = x.rxExpect then s.flitTaken p f par
         else if x.nakSent then s
         else if (x.rxExpect - seq).toNat ≤ 1024 then s.linkSym p Sym.ACK (symAck (x.rxExpect - 1))
         else s)
      else if ftype = 0 ∧ !x.nakSent then s.symsIn p f.body
      else s

/-- FLIT_RECEIVE. -/
def execFlitReceive (p : PortId) (f : Flit) (par : SluiceParity) (s : State) : Out :=
  if Sys2Proof.Flit.wellFormed f then .next (s.flitIn p f par) else .refused .illFormed

/-! ## Flits sent -/

/-- The Flume whose request a bulk packet is. -/
def State.requestFlume (s : State) (p : Nat) (k : Packet) : Option (Nat × BulkWait) :=
  if k.fields.cls = 2 ∧ k.fields.src = s.moduleId then s.bulkOf p k.fields.tag else none

/-- Whose access a packet that leaves carries: a tunnelled access of master 0x00, a Flume's request, or the port's own. -/
def State.outMaster (s : State) (p : Nat) (k : Packet) : Nat :=
  if k.fields.cls = 3 then Master.host
  else match s.requestFlume p k with
    | some (f, _) => Master.flume f
    | none => Master.port p

/-- A packet lost on its way out: it is not sent, its credit and its tags are free, and the access that it carries is
uncorrectable, as for one received (assumption 18): a tunnelled access fails, a lost answer is STATUS 2 in its place, a Flume's
task aborts, a step faults. Of a packet that is forwarded the event is all. -/
def State.lostOut (s : State) (p : Nat) (k : Packet) (inj : Bool) : State :=
  let h := k.fields
  let n := BitVec.ofNat 16 (packetUnits k.payload.length)
  let s := s.modPort p (fun x => { x with used := x.used.modify k.creditIx (fun m => m - n) })
  if h.src ≠ s.moduleId then s
  else if h.cls = 3 then (if h.kind < 4 then s.lostAccess h.tag else s.answerTun ⟨p, h.dst, h.dst, h.tag⟩ 2 [])
  else match s.requestFlume p k with
    | some (f, w) => ((s.freeTag p 2 h.tag).bulkFails f w Cause.MEM_UNCORRECTABLE inj).landHeld f (s.flume f).bulk.length
    | none => if h.cls < 2 then (s.freeTag p h.cls h.tag).stepFault Cause.MEM_UNCORRECTABLE (some h.job) else s

/-- The port's sluice on the way out: each packet that a flit begins is one data entry, and the entry of this crossing is the first
of them; a flit that begins none has control entries only (assumption 18). `old` bytes of the area are of a packet already begun. -/
def State.areaOut (s : State) (p old : Nat) (area : List Byte) (par : SluiceParity) : State × List Byte :=
  let new := area.drop old
  if new.isEmpty then ((s.portSluice p (Master.port p) false par).1, area)
  else
    let h := leNat (new.take 16)
    let len := bits h 67 57
    let k : Packet := ⟨BitVec.ofNat 128 h, (new.drop 16).take len⟩
    let q := s.portSluice p (s.outMaster p k) true par
    if q.2.1 then (q.1.lostOut p k q.2.2, area.take old ++ new.drop (16 + len)) else (q.1, area)

/-- One flit of the port: symbols first, then packets (R300, R304). Nothing to send: nothing changes. -/
def State.sendFlit (s : State) (p : Nat) (par : SluiceParity) : State :=
  let x := s.port p
  if x.link ≠ .up ∨ x.retired then s
  else
    let packets := decide (x.replay.length < 1024) && !x.offApplied && !s.fatal && s.up
    let y := s.pickSyms p
    let r := if packets then y.2.flitArea p x.txBuf else (y.2, [])
    if y.1.isEmpty ∧ r.2.isEmpty then r.1
    else
      let r := r.1.areaOut p (if packets then x.txBuf.length else 0) r.2 par
      let s := r.1
      let area := if s.fatal then [] else r.2
      if y.1.isEmpty ∧ area.isEmpty then s
      else
        let seqd := !s.fatal && (!area.isEmpty || y.1.any (fun v => !linkLayer v))
        let seq := (s.port p).txSeq
        let tag : BitVec 20 := if seqd then BitVec.ofNat 20 (1 + 4 * seq.toNat) else 0
        let body := flitBody tag (if area.isEmpty then List.replicate 616 0 else padArea area) y.1
        let body := if area.isEmpty ∧ seqd then flitBody tag (padArea []) y.1 else body
        (s.putFlit p ⟨tag, body⟩).modPort p (fun x => { x with
          txBuf := if packets then area.drop 616 else x.txBuf
          txSeq := if seqd then seq + 1 else seq
          replaySince := if seqd && x.replay.isEmpty then s.time else x.replaySince
          replay := if seqd then x.replay ++ [(seq, ⟨tag, body⟩)] else x.replay })

/-- WEIR_PACKET_SEND. -/
def execWeirPacketSend (p : Sluiced PortId) (s : State) : Out :=
  match p with
  | ⟨p, par⟩ => .next ((s.sendFlit p par).portJoins p)

end Sys2Proof.Machine
end

