-- ==== Sys2Proof/Machine/Mgmt.lean ====
section
/-! DEFINITION. The management port (R450 to R452): register access by MCTP, PLDM for Monitoring and Control, endpoint IDs. -/

namespace Sys2Proof

/-- Is a request of `n` words from offset `a` well formed (R451)? Words lie on 4-byte boundaries within the window. -/
def mctpOk (a n : Nat) : Bool :=
  decide (1 ≤ n) && decide (n ≤ 16) && decide (a % 4 = 0) && decide (a + 4 * n ≤ 2 ^ 26)

end Sys2Proof

namespace Sys2Proof.Machine

/-- An MCTP packet comes in (R450, R480): by PCIe only while its link is up; SMB_SPEED shows the clock of the last one by SMBus; one with a
bad header or length is discarded and counted. -/
def State.mctpIn (s : State) (via : MctpBinding) (whole : Bool) (f : State → State) : State :=
  if !s.module.mgmtOn ∨ (via = .pcieVdm ∧ !s.host.linkUp) then s
  else
    let s := match via with
      | .smbus v => { s with mgmt := { s.mgmt with smbSpeed := v } }
      | .pcieVdm => s
    if whole then f s else { s with mgmt := { s.mgmt with dropped := satInc 16 s.mgmt.dropped } }

/-- A malformed request: completion 1, counted in MGMT_ERR (R451, R480). -/
def State.mctpMalformed (s : State) : State :=
  ({ s with mgmt := { s.mgmt with malformed := s.mgmt.malformed + 1 } } : State).answer 1 []

/-- `n` words from offset `a` on, in ascending address. -/
def State.mgmtWords (s : State) (a : Nat) : Nat → List Word × State
  | 0 => ([], s)
  | n + 1 =>
    let q := s.mgmtWord a
    let r := State.mgmtWords q.2 (a + 4) n
    (q.1 :: r.1, r.2)

/-- `n` free values: the words of a read whose sluice entry failed (R399); R261 gives this master no value. -/
def State.freshWords (s : State) : Nat → List Word × State
  | 0 => ([], s)
  | n + 1 =>
    let q := s.fresh
    let r := State.freshWords q.2 n
    (q.1 :: r.1, r.2)

/-- Command 0x01. -/
def State.mctpReadBy (s : State) (a n : Nat) (p : SluiceParity) : State :=
  if !mctpOk a n then s.mctpMalformed
  else
    let q := s.mgmtSluice p
    let r := if q.2 then q.1.freshWords n else q.1.mgmtWords a n
    r.2.answer 0 r.1

/-- MCTP_READ. -/
def execMctpRead : Mctp (BitVec 32) → Sluiced Nat → State → Out
  | ⟨off, via, whole⟩, ⟨count, p⟩, s => .next (s.mctpIn via whole (fun s => s.mctpReadBy off.toNat count p))

/-- One register write of the management port, its entry past the sluice. -/
def State.mgmtPut (s : State) (a : Nat) (v : Word) : State := if s.takesWrite .mgmt a then s.writeReg .mgmt a v else s

/-- The words in ascending address. -/
def State.mgmtPuts (s : State) (a : Nat) : List Word → State
  | [] => s
  | v :: vs => State.mgmtPuts (s.mgmtPut a v) (a + 4) vs

/-- The accepted words of command 0x02: a run within the Granary windows is one write of any length (R188). -/
def State.mctpApply (s : State) (a : Nat) (ws : List Word) : State :=
  if (List.range ws.length).all (fun i => inGranary (a + 4 * i)) then
    (if s.takesWrite .mgmt a then s.granWrite .mgmt a (ws.flatMap (fun v => leBytes 4 v.toNat)) else s)
  else s.mgmtPuts a ws

/-- Command 0x02. -/
def State.mctpWriteBy (s : State) (a : Nat) (ws : List Word) (p : SluiceParity) : State :=
  if !mctpOk a ws.length then s.mctpMalformed
  else
    let q := s.mgmtSluice p
    (if q.2 then q.1 else q.1.mctpApply a ws).answer 0 []

/-- MCTP_WRITE. -/
def execMctpWrite : Mctp (BitVec 32) → Sluiced (List Word) → State → Out
  | ⟨off, via, whole⟩, ⟨words, p⟩, s => .next (s.mctpIn via whole (fun s => s.mctpWriteBy off.toNat words p))

/-! ## PLDM -/

/-- The effecter "module start" is a write of START_CTRL by master 0x01 (R452). -/
def execPldmModuleStart : Mctp Bool → State → Out
  | ⟨coldStart, via, whole⟩, s =>
  .next (s.mctpIn via whole (fun s =>
    let v : Word := if coldStart then 2 else 1
    (s.put .mgmt Reg.global.START_CTRL (fun s => s.writeReg .mgmt Reg.global.START_CTRL v)).answer 0 []))

/-- The effecter "master release" is the port's write of 1 to FROZEN (R452, R403). -/
def execPldmMasterRelease : Mctp (BitVec 6) → State → Out
  | ⟨id, via, whole⟩, s =>
  .next (s.mctpIn via whole (fun s =>
    let a := (masterPage id.toNat).base + Reg.header.FREEZE
    (s.put .mgmt a (fun s => s.releaseBy .mgmt id.toNat)).answer 0 []))

/-- The power state in the order of R382's table; the spec numbers no state. -/
def Power.code : Power → Nat
  | .off => 0 | .start => 1 | .test => 2 | .run => 3 | .hold => 4 | .stopped => 5

/-- What a sensor reads: the last sample's readings (R363), Q (R366), the module's states. -/
def State.sensorValue (s : State) : Sensor → Nat
  | .inputVoltage => s.gauge.prev.vin.getD 0
  | .inputCurrent => s.gauge.prev.iin.getD 0
  | .inputPower => s.gauge.prev.power
  | .junction east => s.gauge.prev.hottest east
  | .stackTemp k => s.gauge.prev.stackTemp k
  | .pace => s.gauge.paceOf
  | .powerState => s.module.power.code
  | .locked => b2n s.module.locked
  | .fatal => b2n s.fatal
  | .certificate => 0

/-- PLDM_SENSOR_READ. Keilgo's certificate is read over the same path; the spec names no message for it (assumption 90). -/
def execPldmSensorRead : Mctp Sensor → State → Out
  | ⟨sensor, via, whole⟩, s =>
  .next (s.mctpIn via whole (fun s =>
    let m : MgmtMsg := if sensor = .certificate then .certificate s.module.cert else .sensor (s.sensorValue sensor)
    { s with mgmt := { s.mgmt with out := s.mgmt.out ++ [m] } }))

/-- SET_EVENT_RECEIVER: a write of MGMT_EVENT as master 0x01 (R480). -/
def execSetEventReceiver : Mctp (BitVec 8) → Bool → State → Out
  | ⟨eid, via, whole⟩, pcie, s =>
  .next (s.mctpIn via whole (fun s =>
    let v := wordOf [(eid.toNat, 0), (b2n pcie, 8)]
    (s.put .mgmt Reg.mgmt.MGMT_EVENT (fun s => s.writeReg .mgmt Reg.mgmt.MGMT_EVENT v)).answer 0 []))

/-- ENDPOINT_ID_ASSIGN (R450): each binding takes its own endpoint ID. -/
def execEndpointIdAssign (via : MctpBinding) (eid : BitVec 8) (s : State) : Out :=
  .next (s.mctpIn via true (fun s =>
    let m := match via with
      | .pcieVdm => { s.mgmt with pcieEid := eid }
      | .smbus _ => { s.mgmt with smbEid := eid }
    ({ s with mgmt := m } : State).answer 0 []))

end Sys2Proof.Machine
end

