-- ==== Sys2Proof/Machine/TestPort.lean ====
section
/-! DEFINITION. The test access port (R458). -/

namespace Sys2Proof.Machine

/-- Is the module powered, so that the TAP answers? -/
def State.tapOn (s : State) : Bool := s.module.mgmtOn || decide (s.module.power ≠ .off)

/-- An instruction is in force; the data register shows `bits`, the bit shifted out first in front. -/
def State.tapTo (s : State) (i : TapInstr) (driving : Bool) (shown : List Bool) : State :=
  { s with tap := { s.tap with instr := i, driving := driving, shown := shown } }

/-- BYPASS: one bit, 0 when captured, as IEEE 1149.1 has it. -/
def State.tapBypass (s : State) : State := s.tapTo .bypass false [false]

/-- BYPASS. -/
def execBypass (s : State) : Out := .next (if s.tapOn then s.tapBypass else s)

/-- The 32 bits of IDCODE, least significant first. -/
def idcodeBits : List Bool := (List.range 32).map (fun i => bit 0x1D1A6F3B i)

/-- IDCODE. -/
def execIdcode (s : State) : Out := .next (if s.tapOn then s.tapTo .idcode false idcodeBits else s)

/-- `n` free bits: what the pins show (assumption 3). -/
def State.freshBits (s : State) : Nat → List Bool × State
  | 0 => ([], s)
  | n + 1 =>
    let q := s.fresh
    let r := State.freshBits q.2 n
    (bit q.1.toNat 0 :: r.1, r.2)

/-- SAMPLE_PRELOAD: the cells take what is shifted in, and what they sampled of the pins is shifted out. -/
def execSamplePreload (shiftIn : List Bool) (s : State) : Out :=
  .next (
    if s.tapOn then
      let q := s.freshBits shiftIn.length
      let t := q.2.tapTo .sample false q.1
      { t with tap := { t.tap with cells := shiftIn } }
    else s)

/-- May EXTEST run: TEST_MODE = 1, and the module in TEST or in STOPPED? -/
def State.extestOk (s : State) : Bool :=
  s.module.straps.testMode && (decide (s.module.power = .test) || decide (s.module.power = .stopped))

/-- An instruction that takes the pins from the module's logic: the cells drive them, and the pins are captured. -/
def State.takePins (s : State) (i : TapInstr) : State :=
  if s.extestOk then
    let q := s.freshBits s.tap.cells.length
    q.2.tapTo i true q.1
  else s.tapBypass

/-- EXTEST. -/
def execExtest (s : State) : Out := .next (if s.tapOn then s.takePins .extest else s)
/-- EXTEST_PULSE. -/
def execExtestPulse (s : State) : Out := .next (if s.tapOn then s.takePins .extestPulse else s)

end Sys2Proof.Machine
end

