-- ==== Sys2Proof/Machine/Time.lean ====
section
/-! DEFINITION. One tick of the 156.25 MHz reference clock, which an empty queue lets pass (assumption 10), and the sliding windows
of R483. -/

namespace Sys2Proof.Machine

/-! ## EVENT_LEAVES_WINDOW -/

/-- The longest window that a register can set, in µs: 2²⁴ - 1 ms, and as many s for CE_WINDOW. -/
def windowLongest : WindowId → Nat
  | .ce _ _ => 16777215 * 1000000
  | _ => 16777215 * 1000

/-- The list of a window keeps the events that some value of its register still reaches. Every count is taken from the present time and
the register's present value (R483), so no count depends on this (assumption 70). -/
def State.pruneWindow (s : State) (w : WindowId) : State :=
  let keep (ts : List Nat) : List Nat := windowed s.time (windowLongest w) ts
  match w with
  | .chk e => s.modEngine e (fun x => { x with chkTimes := keep x.chkTimes })
  | .ce k row => s.modStack k (fun x => { x with ceRows := x.ceRows.map (fun e => if e.1 = row then (e.1, keep e.2) else e) })
  | .lane p n => s.modPort p (fun x => { x with laneFails := modAt x.laneFails n keep })
  | .csum p => s.modPort p (fun x => { x with csumTimes := keep x.csumTimes })
  | .brownout => { s with gauge := { s.gauge with boTimes := keep s.gauge.boTimes } }
  | .restart k => s.modFp k (fun x => { x with restartTimes := keep x.restartTimes })

/-- EVENT_LEAVES_WINDOW. -/
def execEventLeavesWindow (w : WindowId) (s : State) : Out := .next (s.pruneWindow w)

/-! ## A tick -/

/-- A window that has stood open for WINDOW closes; a slice still in it began where it fitted, so it has overrun its budget (R186, R231). -/
def State.windowEnd (s : State) (b : Nat) : State :=
  if !s.windowOver b then s
  else match s.sliceRun.find? (fun x => x.inWindow && decide (x.req.home = b)) with
    | some x => s.overrunSlice x
    | none => s.closeFallow b

/-- Does the span timer of barn `b` pause (R217): issue held at a WAIT on a counter that comes from outside, below its N? A WAIT of the
catch-crop segment on such a counter pauses the main record's timer too (assumption 108). -/
def State.spanPaused (s : State) (b : Nat) : Bool :=
  match (s.barn b).waiting, s.curRec b with
  | some (t, n), some r => bit r.ext t && decide (s.fld (Reg.barn.TOKEN b t) 15 0 < n)
  | _, _ => false

/-- The span timers (R217). -/
def State.tickSpan (s : State) (b : Nat) : State :=
  let x := s.span b
  if x.live && x.released && !s.spanPaused b then s.setSpan b { x with timer := x.timer + 1 } else s

/-- The Headgate buckets (R288). -/
def State.tickBucket (s : State) (f : Nat) : State :=
  let rate := s.fld (Reg.flume.HG_RATE f) 23 0
  let top := 10000 * s.fld (Reg.flume.HG_BURST f) 23 0
  if rate = 0 then s else s.modFlume f (fun x => { x with bucket := min top (x.bucket + 64 * rate) })

/-- The watchdogs of running processors that are not frozen (R401, R414). -/
def State.tickWatchdog (s : State) (k : Nat) : State :=
  if (s.fp k).state = .running ∧ !s.frozen (Master.fp k) then s.modFp k (fun x => { x with wdElapsed := x.wdElapsed + 1 }) else s

/-- The Tally's timers (R226, R469). -/
def State.tickTally (s : State) : State :=
  let t := s.tally
  { s with tally := { t with
      elapsed := if t.state = .committing then t.elapsed + 1 else t.elapsed
      cadElapsed := if t.live then t.cadElapsed + 64 else t.cadElapsed } }

/-- Accesses of the ports that waited for memory are tried again: packets on their way through, telemetry, rings of one, tunnelled
accesses and their completions, and the commit checks (R268). -/
def State.tickMemory (s : State) : State :=
  let s := (List.range 24).foldl (fun s p =>
    (s.serveTransit p (s.port p).rxQ.length).landTel p (s.port p).telLand.length) s
  (s.aloneAgain.tunGo.serveCpl s.host.cplHeld.length).dueChecks

/-- What a tick does while the units run: timers, a fallow window that has lasted, accesses that waited, what FP-B owes,
updates under way, and a start that waited. -/
def State.tickUp (s : State) : State :=
  let s := s.tickTally
  let s := (List.range 8).foldl (fun s b => s.tickSpan b) s
  let s := (List.range 32).foldl (fun s f => s.tickBucket f) s
  let s := (List.range 4).foldl (fun s k => s.tickWatchdog k) s
  let s := ((List.range 8).foldl (fun s b => s.windowEnd b) s).slowTick
  let s : State := { s with gauge := { s.gauge with sampleElapsed := s.gauge.sampleElapsed + 64 } }
  s.noteSubs.serveWaiting.serveWindow.tickMemory.pageDuties.endUpdates.dueStart

/-- What a tick does while a start runs, or stands failed (R433, R434). -/
def State.tickStart (s : State) : State :=
  match s.module.failTicks with
  | none =>
    if s.fatal then s
    else
      let s := { s with module := { s.module with startTicks := s.module.startTicks + 1 } }
      (List.range 4).foldl (fun s k => s.tickWatchdog k) s
  | some t => { s with module := { s.module with failTicks := some (t + 1) } }

/-- One tick of 6.4 ns. Without the clock, or without power, nothing counts (R49, R457). -/
def State.tick (s : State) : State :=
  if !s.module.ref156 ∨ s.module.power = .off then s
  else
    let s := { s with time := s.time + 1, fswTick := [] }
    if s.module.power = .start then s.tickStart
    else if s.up then s.tickUp
    else s

end Sys2Proof.Machine
end

