-- ==== Sys2Proof/Machine/Dispatch.lean ====
section
/-! DEFINITION. The dispatcher: one arm per command, each one call of that command's meaning. -/

namespace Sys2Proof.Machine

def exec (i : Instr) (s : State) : Host.Outcome State Fault Refusal :=
  match i with
  -- barn sequencer: issue of one instruction word
  | .nop b => Sys2Proof.Machine.execNop b s
  | .endSeg b => Sys2Proof.Machine.execEndSeg b s
  | .yieldSeg b => Sys2Proof.Machine.execYieldSeg b s
  | .fallow b => Sys2Proof.Machine.execFallow b s
  | .loop b => Sys2Proof.Machine.execLoop b s
  | .endloop b => Sys2Proof.Machine.execEndloop b s
  | .wait b => Sys2Proof.Machine.execWait b s
  | .signal b => Sys2Proof.Machine.execSignal b s
  | .opx b => Sys2Proof.Machine.execOpx b s
  | .opxw b => Sys2Proof.Machine.execOpxw b s
  | .swapbin b => Sys2Proof.Machine.execSwapbin b s
  | .binrd b => Sys2Proof.Machine.execBinrd b s
  | .binwr b => Sys2Proof.Machine.execBinwr b s
  | .wcfg b => Sys2Proof.Machine.execWcfg b s
  | .drain b => Sys2Proof.Machine.execDrain b s
  | .fill b => Sys2Proof.Machine.execFill b s
  | .spill b => Sys2Proof.Machine.execSpill b s
  | .sendw b => Sys2Proof.Machine.execSendw b s
  | .millop b => Sys2Proof.Machine.execMillop b s
  -- barn and engine steps
  | .signalSend b => Sys2Proof.Machine.execSignalSend b s
  | .segmentBoundary b => Sys2Proof.Machine.execSegmentBoundary b s
  | .arrayStep e => Sys2Proof.Machine.execArrayStep e s
  | .completionTokenReturn e bin => Sys2Proof.Machine.execCompletionTokenReturn e bin s
  | .carriedSpill e => Sys2Proof.Machine.execCarriedSpill e s
  | .drainStart e => Sys2Proof.Machine.execDrainStart e s
  | .winnowRow e => Sys2Proof.Machine.execWinnowRow e s
  | .weirTileHandover e => Sys2Proof.Machine.execWeirTileHandover e s
  | .generatorRun e n => Sys2Proof.Machine.execGeneratorRun e n s
  | .writeGeneratorWrite e n => Sys2Proof.Machine.execWriteGeneratorWrite e n s
  | .movementComplete e => Sys2Proof.Machine.execMovementComplete e s
  | .segRestartGo w b => Sys2Proof.Machine.execSegRestartGo w b s
  | .start w b => Sys2Proof.Machine.execStart w b s
  | .bell off v => Sys2Proof.Machine.execBell off v s
  | .stepRestart => Sys2Proof.Machine.execStepRestart s
  | .stepBoundary => Sys2Proof.Machine.execStepBoundary s
  -- Tally
  | .txBegin w => Sys2Proof.Machine.execTxBegin w s
  | .commit w => Sys2Proof.Machine.execCommit w s
  | .rollback w => Sys2Proof.Machine.execRollback w s
  | .rwsWrite w a v => Sys2Proof.Machine.execRwsWrite w a v s
  | .tallyApply => Sys2Proof.Machine.execTallyApply s
  | .tallyTimeout => Sys2Proof.Machine.execTallyTimeout s
  | .deadlineMiss b => Sys2Proof.Machine.execDeadlineMiss b s
  | .cadenceTick => Sys2Proof.Machine.execCadenceTick s
  | .unitOffline w v => Sys2Proof.Machine.execUnitOffline w v s
  -- slices
  | .sliceReqGo w v => Sys2Proof.Machine.execSliceReqGo w v s
  | .sliceEnd b r => Sys2Proof.Machine.execSliceEnd b r s
  | .sliceOverrun b => Sys2Proof.Machine.execSliceOverrun b s
  -- Flumes
  | .armGo w f => Sys2Proof.Machine.execArmGo w f s
  | .descriptorFetch f => Sys2Proof.Machine.execDescriptorFetch f s
  | .flumeElementIssue f hostData => Sys2Proof.Machine.execFlumeElementIssue f hostData s
  | .flumeElementComplete f e => Sys2Proof.Machine.execFlumeElementComplete f e s
  | .flumeGroupSignal f => Sys2Proof.Machine.execFlumeGroupSignal f s
  | .descriptorBoundary f => Sys2Proof.Machine.execDescriptorBoundary f s
  | .translationComplete f granted => Sys2Proof.Machine.execTranslationComplete f granted s
  | .pageRequestResponse f a => Sys2Proof.Machine.execPageRequestResponse f a s
  | .invalidationRequest va bytes => Sys2Proof.Machine.execInvalidationRequest va bytes s
  | .hostErrorCompletion f => Sys2Proof.Machine.execHostErrorCompletion f s
  | .completionTimeout f => Sys2Proof.Machine.execCompletionTimeout f s
  | .restartFromTask w f => Sys2Proof.Machine.execRestartFromTask w f s
  | .restartFromSnapshot w f => Sys2Proof.Machine.execRestartFromSnapshot w f s
  | .restartClear w f => Sys2Proof.Machine.execRestartClear w f s
  | .tagGrant pool => Sys2Proof.Machine.execTagGrant pool s
  -- Weir
  | .linkTraining p offer equalised lanes => Sys2Proof.Machine.execLinkTraining p offer equalised lanes s
  | .flitReceive p flit sluice => Sys2Proof.Machine.execFlitReceive p flit sluice s
  | .replayTimeout p => Sys2Proof.Machine.execReplayTimeout p s
  | .tmoLink p => Sys2Proof.Machine.execTmoLink p s
  | .weirPacketSend p => Sys2Proof.Machine.execWeirPacketSend p s
  | .ack p => Sys2Proof.Machine.execAck p s
  | .nak p => Sys2Proof.Machine.execNak p s
  | .credit p => Sys2Proof.Machine.execCredit p s
  | .tack p => Sys2Proof.Machine.execTack p s
  | .slow p => Sys2Proof.Machine.execSlow p s
  | .abort p => Sys2Proof.Machine.execAbort p s
  | .resume p => Sys2Proof.Machine.execResume p s
  | .verdict p => Sys2Proof.Machine.execVerdict p s
  | .lane p => Sys2Proof.Machine.execLane p s
  | .telemetry p => Sys2Proof.Machine.execTelemetry p s
  | .brow p => Sys2Proof.Machine.execBrow p s
  | .frow p => Sys2Proof.Machine.execFrow p s
  | .grow p => Sys2Proof.Machine.execGrow p s
  | .exprec p => Sys2Proof.Machine.execExprec p s
  | .agree p => Sys2Proof.Machine.execAgree p s
  | .twrite p => Sys2Proof.Machine.execTwrite p s
  | .tackp p => Sys2Proof.Machine.execTackp p s
  | .wack p => Sys2Proof.Machine.execWack p s
  | .rdata p => Sys2Proof.Machine.execRdata p s
  | .rwr p => Sys2Proof.Machine.execRwr p s
  | .rrd p => Sys2Proof.Machine.execRrd p s
  | .mwr p => Sys2Proof.Machine.execMwr p s
  | .mrd p => Sys2Proof.Machine.execMrd p s
  | .cpl p => Sys2Proof.Machine.execCpl p s
  | .reduceAdd p => Sys2Proof.Machine.execReduceAdd p s
  | .bucketGroup p => Sys2Proof.Machine.execBucketGroup p s
  | .hopTimeout p what => Sys2Proof.Machine.execHopTimeout p what s
  | .bulkTmo f => Sys2Proof.Machine.execBulkTmo f s
  | .verdictInputReady j => Sys2Proof.Machine.execVerdictInputReady j s
  | .allgatherStart j => Sys2Proof.Machine.execAllgatherStart j s
  -- memory and Mill
  | .millAdd m ty a x => Sys2Proof.Machine.execMillAdd m ty a x s
  | .millMin m ty a x => Sys2Proof.Machine.execMillMin m ty a x s
  | .millMax m ty a x => Sys2Proof.Machine.execMillMax m ty a x s
  | .millStore m ty a x => Sys2Proof.Machine.execMillStore m ty a x s
  | .adamw k => Sys2Proof.Machine.execAdamw k s
  | .sgdm k => Sys2Proof.Machine.execSgdm k s
  | .copy k => Sys2Proof.Machine.execCopy k s
  | .cast k => Sys2Proof.Machine.execCast k s
  | .verdictCtrlRun w k => Sys2Proof.Machine.execVerdictCtrlRun w k s
  | .verdictCtrlSkip w k => Sys2Proof.Machine.execVerdictCtrlSkip w k s
  | .release w k => Sys2Proof.Machine.execRelease w k s
  | .memoryLineAccess m line acc upset sluice => Sys2Proof.Machine.execMemoryLineAccess m line acc upset sluice s
  | .rowSpare k => Sys2Proof.Machine.execRowSpare k s
  | .repairCtrlGo w k => Sys2Proof.Machine.execRepairCtrlGo w k s
  -- Gauge and supply
  | .gaugeSample r => Sys2Proof.Machine.execGaugeSample r s
  | .brownoutHold rail reading => Sys2Proof.Machine.execBrownoutHold rail reading s
  | .brownoutClear rail => Sys2Proof.Machine.execBrownoutClear rail s
  | .supplyReset rail => Sys2Proof.Machine.execSupplyReset rail s
  | .supplyHighWarn rail => Sys2Proof.Machine.execSupplyHighWarn rail s
  -- faults, Spring, firmware
  | .freezeRelease w target => Sys2Proof.Machine.execFreezeRelease w target s
  | .errStatusClear w a => Sys2Proof.Machine.execErrStatusClear w a s
  | .userCtrlGo w v => Sys2Proof.Machine.execUserCtrlGo w v s
  | .wdKick w k => Sys2Proof.Machine.execWdKick w k s
  | .watchdog k => Sys2Proof.Machine.execWatchdog k s
  | .restart w k => Sys2Proof.Machine.execRestart w k s
  | .svnCommit w => Sys2Proof.Machine.execSvnCommit w s
  | .attCtrlGo w => Sys2Proof.Machine.execAttCtrlGo w s
  | .attestationDone => Sys2Proof.Machine.execAttestationDone s
  | .firmwareUpdate k manifest image => Sys2Proof.Machine.execFirmwareUpdate k manifest image s
  | .activateFirmware => Sys2Proof.Machine.execActivateFirmware s
  -- starts and supply of the module
  | .powerOn straps tjMax => Sys2Proof.Machine.execPowerOn straps tjMax s
  | .junctionReady => Sys2Proof.Machine.execJunctionReady s
  | .powerCycle => Sys2Proof.Machine.execPowerCycle s
  | .warm w => Sys2Proof.Machine.execWarm w s
  | .cold w => Sys2Proof.Machine.execCold w s
  | .startComplete o => Sys2Proof.Machine.execStartComplete o s
  | .startTimeout => Sys2Proof.Machine.execStartTimeout s
  | .forceCold => Sys2Proof.Machine.execForceCold s
  | .modRstN => Sys2Proof.Machine.execModRstN s
  | .perstN => Sys2Proof.Machine.execPerstN s
  | .hotReset => Sys2Proof.Machine.execHotReset s
  | .functionLevelReset => Sys2Proof.Machine.execFunctionLevelReset s
  | .dlDown => Sys2Proof.Machine.execDlDown s
  | .d3hotEntry => Sys2Proof.Machine.execD3hotEntry s
  | .d0Return => Sys2Proof.Machine.execD0Return s
  | .refclk100Loss => Sys2Proof.Machine.execRefclk100Loss s
  | .refclk156Loss => Sys2Proof.Machine.execRefclk156Loss s
  -- host interface
  | .reqMaj w v => Sys2Proof.Machine.execReqMaj w v s
  | .winBase w v => Sys2Proof.Machine.execWinBase w v s
  | .memoryWindowAccess acc sluice => Sys2Proof.Machine.execMemoryWindowAccess acc sluice s
  | .badAccess isWrite => Sys2Proof.Machine.execBadAccess isWrite s
  | .tunnelRequest op => Sys2Proof.Machine.execTunnelRequest op s
  | .tunCtrl w v => Sys2Proof.Machine.execTunCtrl w v s
  | .tunTmo tag => Sys2Proof.Machine.execTunTmo tag s
  | .tunnelErrClear w => Sys2Proof.Machine.execTunnelErrClear w s
  | .msixUnmask v => Sys2Proof.Machine.execMsixUnmask v s
  | .lock w => Sys2Proof.Machine.execLock w s
  | .granaryWindowWrite w a data => Sys2Proof.Machine.execGranaryWindowWrite w a data s
  | .absentPageWrite w a v => Sys2Proof.Machine.execAbsentPageWrite w a v s
  | .registerWrite w a v => Sys2Proof.Machine.execRegisterWrite w a v s
  | .workBeatsLo w e => Sys2Proof.Machine.execWorkBeatsLo w e s
  | .paceBeatsLo w e => Sys2Proof.Machine.execPaceBeatsLo w e s
  | .doneLo w f => Sys2Proof.Machine.execDoneLo w f s
  | .flBytesLo w f => Sys2Proof.Machine.execFlBytesLo w f s
  | .glTimeLo w => Sys2Proof.Machine.execGlTimeLo w s
  | .snapDataRead w b => Sys2Proof.Machine.execSnapDataRead w b s
  | .snapDataWrite w b v => Sys2Proof.Machine.execSnapDataWrite w b v s
  | .load w b => Sys2Proof.Machine.execLoad w b s
  | .thermCfg w k v => Sys2Proof.Machine.execThermCfg w k v s
  | .tallyTimeoutWrite w v => Sys2Proof.Machine.execTallyTimeoutWrite w v s
  | .wdPeriod w k v => Sys2Proof.Machine.execWdPeriod w k v s
  | .boPace w v => Sys2Proof.Machine.execBoPace w v s
  | .fwPace w v => Sys2Proof.Machine.execFwPace w v s
  -- management port and test port
  | .mctpRead off count => Sys2Proof.Machine.execMctpRead off count s
  | .mctpWrite off words => Sys2Proof.Machine.execMctpWrite off words s
  | .pldmModuleStart coldStart => Sys2Proof.Machine.execPldmModuleStart coldStart s
  | .pldmMasterRelease id => Sys2Proof.Machine.execPldmMasterRelease id s
  | .pldmSensorRead sensor => Sys2Proof.Machine.execPldmSensorRead sensor s
  | .setEventReceiver eid pcie => Sys2Proof.Machine.execSetEventReceiver eid pcie s
  | .endpointIdAssign pcie eid => Sys2Proof.Machine.execEndpointIdAssign pcie eid s
  | .bypass => Sys2Proof.Machine.execBypass s
  | .idcode => Sys2Proof.Machine.execIdcode s
  | .samplePreload shiftIn => Sys2Proof.Machine.execSamplePreload shiftIn s
  | .extest => Sys2Proof.Machine.execExtest s
  | .extestPulse => Sys2Proof.Machine.execExtestPulse s
  -- time and links
  | .eventLeavesWindow wnd => Sys2Proof.Machine.execEventLeavesWindow wnd s
  | .localMemoryUncorrectable k => Sys2Proof.Machine.execLocalMemoryUncorrectable k s
  | .hostWindowAccessWaitExpiry => Sys2Proof.Machine.execHostWindowAccessWaitExpiry s
  | .pcieLinkUp rate width flitMode => Sys2Proof.Machine.execPcieLinkUp rate width flitMode s
  | .stoppedInputCrossing rising => Sys2Proof.Machine.execStoppedInputCrossing rising s

end Sys2Proof.Machine
end

