-- ==== Sys2Proof/Safety.lean ====
section
/-! DEFINITION. The terms claims are stated in: the canonical form of a state's sparse maps, frames (which parts of the state a
command leaves alone), the registers of a page, and the word at a sequencer's address. -/

namespace Sys2Proof.Machine

/-- Every sparse map of the state is in its one canonical form (keys rising, no entry that an unlisted key reads as). -/
def State.Canonical (s : State) : Prop :=
  CMap.wf resetVal s.regs = true ∧ Memory.wf s.mem = true ∧ Memory.wf s.memTag = true ∧ Memory.wf s.crib = true
    ∧ Memory.wf s.cribBad = true ∧ Memory.wf s.loft = true ∧ Memory.wf s.gran = true ∧ Memory.wf s.granBad = true
    ∧ Memory.wf s.glog = true ∧ Memory.wf s.fswCls = true ∧ Memory.wf s.fswTick = true
    ∧ CMap.wf msixDefault s.host.msix = true ∧ s.barns.toList.all (fun b => Memory.wf b.staging) = true
    ∧ s.engines.toList.all (fun e => e.bins.toList.all (fun x => Memory.wf x.content)) = true
    ∧ s.fps.toList.all (fun x => Memory.wf x.log && Memory.wf x.ram && Memory.wf x.ramBad) = true

/-! ## Frames -/

/-- The parts of a state, one per field; of the stacks also all but whether their channels have left service (R213). -/
inductive Part where
  | stackCores
  | time | regs | mem | memTag | crib | cribBad | loft | gran | granBad | barns
  | engines | flumes | memStacks | ports | jobs | coll | chanSent | chanLanded | tally | gauge | fps | fuses
  | module | host | mgmt | tap | glog | glogCount | fswCls | fatal | springBad | lsdPending
  | fswTick | slicePend | sliceRun | regionActs | granWaits | pools | freeIx | pending
deriving DecidableEq, Repr

/-- Two states agree in a part. -/
def State.sameAt (s t : State) : Part → Prop
  | .stackCores => ∀ k, t.stack k = { s.stack k with pondOffApplied := (t.stack k).pondOffApplied
                                                     lakeOffApplied := (t.stack k).lakeOffApplied }
  | .time => t.time = s.time
  | .regs => t.regs = s.regs
  | .mem => t.mem = s.mem
  | .memTag => t.memTag = s.memTag
  | .crib => t.crib = s.crib
  | .cribBad => t.cribBad = s.cribBad
  | .loft => t.loft = s.loft
  | .gran => t.gran = s.gran
  | .granBad => t.granBad = s.granBad
  | .barns => t.barns = s.barns
  | .engines => t.engines = s.engines
  | .flumes => t.flumes = s.flumes
  | .memStacks => t.memStacks = s.memStacks
  | .ports => t.ports = s.ports
  | .jobs => t.jobs = s.jobs
  | .coll => t.coll = s.coll
  | .chanSent => t.chanSent = s.chanSent
  | .chanLanded => t.chanLanded = s.chanLanded
  | .tally => t.tally = s.tally
  | .gauge => t.gauge = s.gauge
  | .fps => t.fps = s.fps
  | .fuses => t.fuses = s.fuses
  | .module => t.module = s.module
  | .host => t.host = s.host
  | .mgmt => t.mgmt = s.mgmt
  | .tap => t.tap = s.tap
  | .glog => t.glog = s.glog
  | .glogCount => t.glogCount = s.glogCount
  | .fswCls => t.fswCls = s.fswCls
  | .fatal => t.fatal = s.fatal
  | .springBad => t.springBad = s.springBad
  | .lsdPending => t.lsdPending = s.lsdPending
  | .fswTick => t.fswTick = s.fswTick
  | .slicePend => t.slicePend = s.slicePend
  | .sliceRun => t.sliceRun = s.sliceRun
  | .regionActs => t.regionActs = s.regionActs
  | .granWaits => t.granWaits = s.granWaits
  | .pools => t.pools = s.pools
  | .freeIx => t.freeIx = s.freeIx
  | .pending => t.pending = s.pending

/-- From `s` to `t` nothing changes outside the parts named. -/
def State.Frame (ps : List Part) (s t : State) : Prop := ∀ p, p ∉ ps → s.sameAt t p

/-- Every register outside the pages named reads as before. -/
def State.RegFrame (pages : List Page) (s t : State) : Prop := ∀ a, pageOf a ∉ pages → t.reg a = s.reg a

/-- What a report and the freeze that may follow it change: registers, the Tally's open transaction and admission, the Gleaner's log,
MSI-X messages, platform events; and with an admission that so ends, whether the channels are in service whose removal waited for its
end, or waits for a slice (R213, R225, R409). -/
def reportParts : List Part := [.regs, .tally, .host, .mgmt, .glog, .glogCount, .fswCls, .fswTick, .memStacks, .regionActs]

/-- What a segment abort or a step abort may change besides (R201, R205, R292, R331). -/
def abortParts : List Part := [.barns, .engines, .flumes, .ports, .jobs, .coll, .lsdPending, .pools] ++ reportParts

/-! ## The word at a sequencer's address -/

/-- Barn `b` issues, and the word `w` with opcode `op` and VER 1 stands at SEQ_PC in the bank that runs (R155, R190). -/
def State.Stands (s : State) (b op w : Nat) : Prop :=
  let x := s.barn b
  s.canIssue b = true ∧ x.pc.toNat < bankWords x.bank ∧ s.granWordBad (granKey b x.bank x.pc.toNat) = false
    ∧ (s.gran.rd (granKey b x.bank x.pc.toNat)).toNat = w ∧ wordVer w = 1 ∧ wordOp w = op

/-- The commands by which barn `b` issues an instruction, in the order of their opcodes (R156). -/
def issueCmds (b : BarnId) (u : Upset) : List Instr :=
  [.nop ⟨b, u⟩, .endSeg ⟨b, u⟩, .yieldSeg ⟨b, u⟩, .fallow ⟨b, u⟩, .loop ⟨b, u⟩, .endloop ⟨b, u⟩, .wait ⟨b, u⟩, .signal ⟨b, u⟩,
   .opx ⟨b, u⟩, .opxw ⟨b, u⟩, .swapbin ⟨b, u⟩, .binrd ⟨b, u⟩, .binwr ⟨b, u⟩, .wcfg ⟨b, u⟩, .drain ⟨b, u⟩, .fill ⟨b, u⟩,
   .spill ⟨b, u⟩, .sendw ⟨b, u⟩, .millop ⟨b, u⟩]

/-- Every enabled engine of barn `b` holds at `t` what `f` makes of what it held at `s`. -/
def State.EachEngine (s t : State) (b : Nat) (f : Nat → Engine → Engine) : Prop :=
  ∀ e, e ∈ s.barnEngines b → t.engine e = f e (s.engine e)

/-- Every engine but the enabled ones of barn `b` is as before. -/
def State.OtherEngines (s t : State) (b : Nat) : Prop := ∀ e, e ∉ s.barnEngines b → t.engine e = s.engine e

/-- What the word `w` of a movement instruction and the descriptors its ARM names must be (R178, R179), by kind. -/
def moveOk (kind : MovKind) (w : Nat) (ds : List AgDesc) : Prop :=
  match kind with
  | .fill => ∃ r t, movePair ds (bits w 117 115) = some (r, t) ∧ r.space ≠ 0 ∧ t.space = 0 ∧ r.total = t.total
  | .spill => ∃ r t, movePair ds (bits w 117 115) = some (r, t) ∧ r.space = 0 ∧ t.space ≠ 0 ∧ r.total = t.total
  | .sendw => bits w 114 110 < 24 ∧ ∃ d ∈ ds, d.dir = 0 ∧ d.agn = bits w 117 115 ∧ d.space = 0
  | .millop => ∃ r a, (ds = [r, a] ∨ ds = [a, r]) ∧ r.dir = 0 ∧ r.agn = bits w 117 115 ∧ r.space = 0 ∧ a.dir = 2 ∧ a.space = 2
      ∧ r.total = a.total ∧ r.len = a.len ∧ bits w 109 107 < 4 ∧ bits w 112 110 < 4

/-- The ARM field of a movement instruction. -/
def moveArm (kind : MovKind) (w : Nat) : Nat :=
  match kind with
  | .fill | .spill => bits w 114 104
  | .sendw => bits w 97 87
  | .millop => bits w 106 96

/-- The opcode of a movement instruction. -/
def moveOpc : MovKind → Nat
  | .fill => Opc.FILL | .spill => Opc.SPILL | .sendw => Opc.SENDW | .millop => Opc.MILLOP

/-- The command that issues it. -/
def moveCmd (b : BarnId) (u : Upset) : MovKind → Instr
  | .fill => .fill ⟨b, u⟩ | .spill => .spill ⟨b, u⟩ | .sendw => .sendw ⟨b, u⟩ | .millop => .millop ⟨b, u⟩

/-- The movement-queue entry it makes. -/
def moveEntry (kind : MovKind) (seq w : Nat) (ds : List AgDesc) : MovOp :=
  { kind := kind, seq := seq, q := bits w 117 115, port := if kind = .sendw then bits w 114 110 else 0,
    chan := if kind = .sendw then bits w 109 98 else 0, mop := if kind = .millop then bits w 114 107 else 0,
    gens := ds.map (fun d => d.agn) }

end Sys2Proof.Machine
end

