-- ==== Sys2Proof/Certificates/Slice0/Obligations.lean ====
section
/-! DEFINITION. The statements about the machine, one `Obligations.<Name>` each. -/

open Sys2Proof Sys2Proof.Machine

/-! ## Steps -/

/-- A step takes the command at the front of the queue and runs it on the state with the queue's rest. With an empty queue one tick
of the reference clock passes (assumption 10: the model's choice): in RUN the clock's count rises by one, but where a start that waited
for slices begins (assumption 112). -/
def Obligations.StepRunsFront : Prop :=
  (∀ (s : State) (c : Instr) (rest : List Instr), s.pending = c :: rest → step s = exec c { s with pending := rest })
  ∧ (∀ s : State, s.pending = [] → s.module.ref156 = true → s.module.power = .run → s.module.startDue = none →
      ∃ t, step s = .next t ∧ t.time = s.time + 1)

/-! ## Barn instructions -/

/-- NOP does nothing but the fetch; SWAPBIN exchanges the binding of the logical bins and moves no content (R74, R156). LOOP opens a
loop with its counter at 0; ENDLOOP counts up and goes back, or closes the loop (R181). END with no loop open and YIELD reach their
boundary, where the sequencer waits (R185); an END with a loop open is refused with FORMAT and freezes the sequencer (R181). -/
def Obligations.SequencerControl : Prop :=
  ∀ (b : BarnId) (s : State) (w : Nat),
    (s.Stands b Opc.NOP w → exec (.nop ⟨b, .clean⟩) s = .next (s.setBarn b
      { s.barn b with pc := (s.barn b).pc + 1, issued := (s.barn b).issued + 1, waiting := none }))
    ∧ (s.Stands b Opc.SWAPBIN w → exec (.swapbin ⟨b, .clean⟩) s = .next (s.setBarn b
      { s.barn b with pc := (s.barn b).pc + 1, issued := (s.barn b).issued + 1, waiting := none,
                      swapped := !(s.barn b).swapped }))
    ∧ (s.Stands b Opc.LOOP w → (s.barn b).loops.length < 6 → exec (.loop ⟨b, .clean⟩) s = .next (s.setBarn b
      { s.barn b with pc := (s.barn b).pc + 1, issued := (s.barn b).issued + 1, waiting := none,
                      loops := (s.barn b).loops ++ [⟨BitVec.ofNat 20 (bits w 117 98), 0, (s.barn b).pc + 1⟩] }))
    ∧ (∀ ls l, s.Stands b Opc.ENDLOOP w → (s.barn b).loops = ls ++ [l] → l.ctr < l.cntM1 →
      exec (.endloop ⟨b, .clean⟩) s = .next (s.setBarn b
        { s.barn b with pc := l.after, issued := (s.barn b).issued + 1, waiting := none,
                        loops := ls ++ [{ l with ctr := l.ctr + 1 }] }))
    ∧ (∀ ls l, s.Stands b Opc.ENDLOOP w → (s.barn b).loops = ls ++ [l] → ¬ l.ctr < l.cntM1 →
      exec (.endloop ⟨b, .clean⟩) s = .next (s.setBarn b
        { s.barn b with pc := (s.barn b).pc + 1, issued := (s.barn b).issued + 1, waiting := none, loops := ls }))
    ∧ (s.Stands b Opc.END w → (s.barn b).loops = [] → exec (.endSeg ⟨b, .clean⟩) s = .next (s.setBarn b
      { s.barn b with boundary := some ⟨true, false, (s.barn b).pc, false, false⟩ }))
    ∧ (s.Stands b Opc.YIELD w → exec (.yieldSeg ⟨b, .clean⟩) s = .next (s.setBarn b
      { s.barn b with boundary := some ⟨false, bit w 117, (s.barn b).pc, false, false⟩ }))
    ∧ (s.Canonical → s.Stands b Opc.END w → (s.barn b).loops ≠ [] → ∃ t, exec (.endSeg ⟨b, .clean⟩) s = .next t
        ∧ t.frozen (Master.barn b) = true ∧ (t.reg ((Page.barn b).base + Reg.header.FREEZE)).field 15 8 = Cause.FORMAT
        ∧ t.barns = s.barns)

/-- WAIT with its counter, of 16 bits, at N or more subtracts N and issue goes on; below N it holds issue and takes nothing: no other
instruction issues from the word, and no engine changes. N = 0 is refused with FORMAT and freezes the sequencer (R182). -/
def Obligations.WaitTakesOrHolds : Prop :=
  ∀ (b : BarnId) (s : State) (w : Nat), s.Canonical → s.Stands b Opc.WAIT w →
    s.token b (bits w 117 114) < 65536
    ∧ (bits w 113 98 = 0 → ∃ t, exec (.wait ⟨b, .clean⟩) s = .next t ∧ t.frozen (Master.barn b) = true
        ∧ (t.reg ((Page.barn b).base + Reg.header.FREEZE)).field 15 8 = Cause.FORMAT ∧ t.barns = s.barns)
    ∧ (bits w 113 98 ≠ 0 → bits w 113 98 ≤ s.token b (bits w 117 114) → s.waitHolds b = false →
      ∃ t, exec (.wait ⟨b, .clean⟩) s = .next t ∧ t.token b (bits w 117 114) = s.token b (bits w 117 114) - bits w 113 98
        ∧ (t.barn b).pc = (s.barn b).pc + 1 ∧ (t.barn b).waiting = none
        ∧ (∀ a, a ≠ Reg.barn.TOKEN b (bits w 117 114) → t.reg a = s.reg a)
        ∧ (∀ k, k ≠ b.val → t.barn k = s.barn k) ∧ s.Frame [.regs, .barns] t)
    ∧ (s.token b (bits w 117 114) < bits w 113 98 →
      exec (.wait ⟨b, .clean⟩) s = .next (s.setBarn b { s.barn b with waiting := some (bits w 117 114, bits w 113 98) }))
    ∧ (∀ (u : Upset) (i : Nat) (c : Instr), i ≠ Opc.WAIT → (issueCmds b u)[i]? = some c → exec c s = .next s)

/-- SIGNAL enters the signal queue of eight entries, and issue goes on (R183). The SIGNAL at the head of the queue, its operations
complete, is suppressed while a replay owes suppressions (R202); else its N tokens reach the barn counter or the TOKIN it names, or its
MSI-X vector takes its event, and SEG_SIGNALS counts it (R184). One that would take a barn counter past 65,535 is refused with FORMAT,
the counter as before, and the sequencer freezes (R184). -/
def Obligations.SignalsEnterAndReach : Prop :=
  (∀ (b : BarnId) (s : State) (w : Nat), s.Stands b Opc.SIGNAL w → bits w 117 116 < 3 →
    (bits w 117 116 = 0 → bits w 115 111 < 8) → (bits w 117 116 ≠ 2 → bits w 106 91 ≠ 0) → (s.barn b).sigQ.length < 8 →
    exec (.signal ⟨b, .clean⟩) s = .next (s.setBarn b
      { s.barn b with
        pc := (s.barn b).pc + 1, issued := (s.barn b).issued + 1, waiting := none, seq := (s.barn b).seq + 1
        sigQ := (s.barn b).sigQ ++ [⟨bits w 117 116, bits w 115 111, bits w 110 107, bits w 106 91, bit w 90, bit w 89,
          (s.barn b).seq, (s.barn b).pc⟩] }))
  ∧ (∀ (b : BarnId) (s : State) (g : SigEntry) (rest : List SigEntry), s.Canonical → (s.barn b).sigQ = g :: rest →
    s.frozen (Master.barn b) = false → s.sigReady b g = true →
    ((s.barn b).suppress ≠ 0 → exec (.signalSend b) s
        = .next (s.setBarn b { s.barn b with sigQ := rest, suppress := (s.barn b).suppress - 1 }))
    ∧ ((s.barn b).suppress = 0 →
      (g.kind = 0 → s.token g.target g.token + g.n ≤ 65535 → ∃ t, exec (.signalSend b) s = .next t
        ∧ t.token g.target g.token = s.token g.target g.token + g.n
        ∧ t.barn b = { s.barn b with sigQ := rest, segSignals := (s.barn b).segSignals + 1 }
        ∧ (∀ a, a ≠ Reg.barn.TOKEN g.target g.token → t.reg a = s.reg a) ∧ (∀ k, k ≠ b.val → t.barn k = s.barn k)
        ∧ s.Frame [.regs, .barns] t)
      ∧ (g.kind = 1 → s.tokin g.target + g.n ≤ 65535 → ∃ t, exec (.signalSend b) s = .next t
        ∧ t.tokin g.target = s.tokin g.target + g.n
        ∧ t.barn b = { s.barn b with sigQ := rest, segSignals := (s.barn b).segSignals + 1 }
        ∧ (∀ a, a ≠ Reg.flume.TOKIN g.target → t.reg a = s.reg a) ∧ (∀ k, k ≠ b.val → t.barn k = s.barn k)
        ∧ s.Frame [.regs, .barns, .flumes] t)
      ∧ (g.kind = 2 → ∃ t, exec (.signalSend b) s = .next t ∧ t.host = (s.msix g.target).host
        ∧ t.barn b = { s.barn b with sigQ := rest, segSignals := (s.barn b).segSignals + 1 }
        ∧ (∀ k, k ≠ b.val → t.barn k = s.barn k) ∧ s.Frame [.barns, .host] t)
      ∧ (g.kind = 0 → g.target < 8 → g.token < 16 → 65535 < s.token g.target g.token + g.n → ∃ t, exec (.signalSend b) s = .next t
        ∧ t.token g.target g.token = s.token g.target g.token ∧ t.frozen (Master.barn b) = true
        ∧ (t.reg ((Page.barn b).base + Reg.header.FREEZE)).field 15 8 = Cause.FORMAT
        ∧ t.barn b = { s.barn b with sigQ := rest })))

/-- FALLOW with every earlier operation complete opens its window: the oldest deferred slice of the barn that fits it runs in it; with
no slice it stays open for a row to spare that fits, and with neither it closes as it opens, and issue goes on (R186, R231). A slice
requested by a master with the right for an IDLE barn, with no admission live, begins at once (R229). A slice that passes leaves its
region with RESULT 3 shown, and a LINK slice takes SUSPECT off its port (R394, R410); one past its budget is stopped with RESULT 5
shown (R410). -/
def Obligations.FallowAndSlices : Prop :=
  (∀ (b : BarnId) (s : State) (w : Nat), s.Stands b Opc.FALLOW w → bits w 117 102 ≠ 0 → s.barnDone b = true →
    (s.deferredFor b (bits w 117 102) = none →
      (s.spareWaits b = false → exec (.fallow ⟨b, .clean⟩) s = .next (s.setBarn b
        { s.barn b with pc := (s.barn b).pc + 1, issued := (s.barn b).issued + 1, waiting := none, fallow := none }))
      ∧ (s.spareWaits b = true → sliceBudget 0x9 ≤ bits w 117 102 → exec (.fallow ⟨b, .clean⟩) s = .next (s.setBarn b
        { s.barn b with pc := (s.barn b).pc + 1, issued := (s.barn b).issued + 1, waiting := none, phase := .fallow
                        fallow := some ⟨bits w 117 102, some s.time⟩ })))
    ∧ (∀ r, s.deferredFor b (bits w 117 102) = some r → ∃ t x, exec (.fallow ⟨b, .clean⟩) s = .next t
        ∧ (t.barn b).phase = .fallow ∧ (t.barn b).fallow = some ⟨bits w 117 102, some s.time⟩
        ∧ t.sliceRun = s.sliceRun ++ [x] ∧ x.req = r ∧ x.since = s.time ∧ x.inWindow = true
        ∧ t.slicePend = s.slicePend.filter (fun q => decide (q ≠ r))
        ∧ (∀ k, k ≠ b.val → t.barn k = s.barn k) ∧ s.Frame [.regs, .barns, .slicePend, .sliceRun] t))
  ∧ (∀ (w : Writer) (v : Word) (s : State),
    let r : SliceReq := ⟨v.field 3 0, v.field 27 4⟩
    s.Canonical → s.takesClean w Reg.gleaner.SLICE_REQ = true → w ∈ [.mgmt, .fp 0, .fp 2] → bit v.toNat 31 = true →
    sliceBudget r.code ≠ 0 → r.code ≠ 0x9 → r.fits = true → s.regionGone r = false → s.tally.live = false →
    r ∉ s.slicePend → s.sliceReady r = true → (s.barn r.home).phase = .idle → (s.barn r.home).fallow = none →
    ∃ t x, exec (.sliceReqGo w v) s = .next t ∧ t.sliceRun = s.sliceRun ++ [x] ∧ x.req = r ∧ x.since = s.time
      ∧ x.inWindow = false ∧ t.slicePend = s.slicePend ∧ t.fld Reg.gleaner.SLICE_STATUS 2 0 = 2
      ∧ s.Frame [.regs, .slicePend, .sliceRun] t)
  ∧ (∀ (code : BitVec 4) (inst : BitVec 24) (s : State) (x : SliceRun), s.Canonical → s.sliceNamed code inst = some x →
    s.granWaits = [] → s.regionActs = [] → (s.barn x.req.home).abortHeld = none → (s.barn x.req.home).swapPending = false →
    (s.sliceLate x = false → s.linkClean x = true → ∃ t, exec (.sliceEnd ⟨code, inst⟩ .passed) s = .next t
      ∧ t.sliceRun = s.sliceRun.filter (fun y => decide (y.req ≠ x.req))
      ∧ (s.sliceShown x.req = true → t.fld Reg.gleaner.SLICE_STATUS 2 0 = 3)
      ∧ (x.req.code = 0xB → x.req.inst < 24 → (t.port x.req.inst).suspect = false)
      ∧ s.Frame [.regs, .barns, .ports, .sliceRun] t)
    ∧ (s.sliceLate x = true → ∃ t, exec (.sliceOverrun ⟨code, inst⟩) s = .next t
      ∧ t.sliceRun = s.sliceRun.filter (fun y => decide (y.req ≠ x.req))
      ∧ (s.sliceShown x.req = true → t.fld Reg.gleaner.SLICE_STATUS 2 0 = 5)
      ∧ s.Frame ([.barns, .sliceRun] ++ reportParts) t))

/-- OPX and OPXW that no rule refuses enter the array queue of every enabled engine of the barn, their bins FILLING (R152, R153, R170).
BINWR enters the array queue of every enabled engine; its bin takes FORM and MODE and is FILLING (R177). -/
def Obligations.ArrayQueuesFill : Prop :=
  (∀ (b : BarnId) (wide : Bool) (s : State) (w : Nat) (ds : List AgDesc) (o : TileOff),
    let x := s.barn b
    let f := opxFields w
    let zs := zeroStart f.zs x.loops
    let ps := if f.complex then [x.phys 0, x.phys 1] else [x.phys f.bin]
    s.Stands b (if wide then Opc.OPXW else Opc.OPX) w → opxRefused f wide zs = false →
    armList s b x.bank f.arm = .ok ds → tileOffsets s b x.bank f.tile x.counters = .ok o →
    (∀ e, e ∈ s.barnEngines b → (coordsOf s e f.mbatch o).slot < 56) →
    s.binRefusal b ps (zs || f.reload) f.form f.carried = none → s.room b (fun y => y.arrQ.length) = true →
    (f.spill = true → s.room b (fun y => y.winQ.length) = true) → s.armRoom b ds = true →
    ∃ t, exec (if wide then .opxw ⟨b, .clean⟩ else .opx ⟨b, .clean⟩) s = .next t
      ∧ (t.barn b) = { x with pc := x.pc + 1, issued := x.issued + 1, waiting := none, seq := x.seq + 1 }
      ∧ (∀ k, k ≠ b.val → t.barn k = s.barn k) ∧ s.OtherEngines t b ∧ s.Frame [.barns, .engines] t
      ∧ (∀ e, e ∈ s.barnEngines b →
          (t.engine e).arrQ = (s.engine e).arrQ ++ [arrOpOf x f zs (coordsOf s e f.mbatch o)]
          ∧ (t.engine e).winQ = (if f.spill then (s.engine e).winQ ++ [spillOpOf x f (coordsOf s e f.mbatch o)] else (s.engine e).winQ)
          ∧ (∀ p, p ∈ ps → ((t.engine e).bins[p]?.getD Bin.reset).state = .filling)
          ∧ (t.engine e).movQ = (s.engine e).movQ ∧ (t.engine e).iq = (s.engine e).iq ∧ (t.engine e).oq = (s.engine e).oq))
  ∧ (∀ (b : BarnId) (s : State) (w : Nat) (ds : List AgDesc),
    let x := s.barn b
    let p := x.phys (bits w 117 117)
    s.Stands b Opc.BINWR w → armList s b x.bank (bits w 110 100) = .ok ds →
    s.binRefusal b [p] true (bits w 113 112) (bit w 111) = none → s.room b (fun y => y.arrQ.length) = true →
    s.armRoom b ds = true →
    ∃ t, exec (.binwr ⟨b, .clean⟩) s = .next t
      ∧ (t.barn b) = { x with pc := x.pc + 1, issued := x.issued + 1, waiting := none, seq := x.seq + 1 }
      ∧ (∀ k, k ≠ b.val → t.barn k = s.barn k) ∧ s.OtherEngines t b ∧ s.Frame [.barns, .engines] t
      ∧ (∀ e, e ∈ s.barnEngines b →
          (t.engine e).arrQ = (s.engine e).arrQ ++ [binwrOf x p (bits w 116 114) (bits w 113 112)]
          ∧ (((t.engine e).bins[p]?.getD Bin.reset).state = .filling
            ∧ ((t.engine e).bins[p]?.getD Bin.reset).form = bits w 113 112
            ∧ ((t.engine e).bins[p]?.getD Bin.reset).carried = bit w 111)
          ∧ (t.engine e).winQ = (s.engine e).winQ ∧ (t.engine e).movQ = (s.engine e).movQ))

/-- BINRD, DRAIN and WCFG enter the Winnow queue of every enabled engine; WCFG sets its half of the barn's drain parameters, and a
DRAIN takes the halves in force (R125, R175 to R177). -/
def Obligations.WinnowQueueOps : Prop :=
  ∀ (b : BarnId) (s : State) (w : Nat) (ds : List AgDesc) (o : TileOff),
    let x := s.barn b
    s.room b (fun y => y.winQ.length) = true →
    (s.Stands b Opc.BINRD w → armList s b x.bank (bits w 114 104) = .ok ds → s.armRoom b ds = true →
      ∃ t, exec (.binrd ⟨b, .clean⟩) s = .next t
        ∧ t.barn b = { x with pc := x.pc + 1, issued := x.issued + 1, waiting := none, seq := x.seq + 1 }
        ∧ (∀ k, k ≠ b.val → t.barn k = s.barn k) ∧ s.OtherEngines t b ∧ s.Frame [.barns, .engines] t
        ∧ ∀ e, e ∈ s.barnEngines b → (t.engine e).winQ = (s.engine e).winQ
            ++ [{ winOpOf x .binrd (x.phys (bits w 117 117)) with outq := bits w 116 115 }]
          ∧ (t.engine e).bins = (s.engine e).bins ∧ (t.engine e).arrQ = (s.engine e).arrQ)
    ∧ (s.Stands b Opc.WCFG w → wcfgReserved w = false →
      ∃ t, exec (.wcfg ⟨b, .clean⟩) s = .next t
        ∧ (bit w 117 = true → t.barn b = { x with pc := x.pc + 1, issued := x.issued + 1, waiting := none, seq := x.seq + 1,
                                                  wcfg1 := BitVec.ofNat 118 (bits w 117 0) })
        ∧ (bit w 117 = false → t.barn b = { x with pc := x.pc + 1, issued := x.issued + 1, waiting := none, seq := x.seq + 1,
                                                   wcfg0 := BitVec.ofNat 118 (bits w 117 0),
                                                   tloadDue := decide (bits w 93 92 ≠ 0) })
        ∧ (∀ k, k ≠ b.val → t.barn k = s.barn k) ∧ s.OtherEngines t b ∧ s.Frame [.barns, .engines] t
        ∧ ∀ e, e ∈ s.barnEngines b → t.engine e = { s.engine e with winQ := (s.engine e).winQ ++ [winOpOf x .wcfg 0] })
    ∧ (s.Stands b Opc.DRAIN w → armList s b x.bank (bits w 88 78) = .ok ds → tileOffsets s b x.bank (bits w 77 67) x.counters = .ok o →
      (∀ e, e ∈ s.barnEngines b → (coordsOf s e (bits w 100 89) o).slot < 56) → s.armRoom b ds = true →
      ∃ t, exec (.drain ⟨b, .clean⟩) s = .next t
        ∧ t.barn b = { x with pc := x.pc + 1, issued := x.issued + 1, waiting := none, seq := x.seq + 1, tloadDue := false }
        ∧ (∀ k, k ≠ b.val → t.barn k = s.barn k) ∧ s.OtherEngines t b ∧ s.Frame [.barns, .engines] t
        ∧ ∀ e, e ∈ s.barnEngines b → (t.engine e).winQ = (s.engine e).winQ
            ++ [{ winOpOf x .drain (x.phys (bits w 117 117)) with
                  tload := x.tloadDue, layer := bits w 116 101, mb := (coordsOf s e (bits w 100 89) o).mb
                  row0 := (coordsOf s e (bits w 100 89) o).row0, col0 := (coordsOf s e (bits w 100 89) o).col0 }]
          ∧ (t.engine e).bins = (s.engine e).bins ∧ (t.engine e).arrQ = (s.engine e).arrQ)

/-- FILL, SPILL, SENDW and MILLOP whose ARM names what R178 asks for enter the movement queue of every enabled engine with their
generators; MILLOP counts as work handed on (R203). -/
def Obligations.MovementEntersQueues : Prop :=
  ∀ (b : BarnId) (kind : MovKind) (s : State) (w : Nat) (ds : List AgDesc),
    let x := s.barn b
    s.Stands b (moveOpc kind) w → moveArm kind w ≠ noDesc → armList s b x.bank (moveArm kind w) = .ok ds → moveOk kind w ds →
    s.room b (fun y => y.movQ.length) = true → s.armRoom b ds = true →
    ∃ t, exec (moveCmd b .clean kind) s = .next t
      ∧ t.barn b = { x with pc := x.pc + 1, issued := x.issued + 1, waiting := none, seq := x.seq + 1,
                            handed := x.handed || decide (kind = .millop) }
      ∧ (∀ k, k ≠ b.val → t.barn k = s.barn k) ∧ s.OtherEngines t b ∧ s.Frame [.barns, .engines] t
      ∧ ∀ e, e ∈ s.barnEngines b → (t.engine e).movQ = (s.engine e).movQ ++ [moveEntry kind x.seq w ds]
        ∧ (t.engine e).bins = (s.engine e).bins ∧ (t.engine e).arrQ = (s.engine e).arrQ ∧ (t.engine e).winQ = (s.engine e).winQ

/-- An instruction word whose version or opcode the spec reserves is refused with FORMAT whichever instruction is tried, and freezes the
sequencer; its address stands in FAULT_PC (R155). A word or descriptor whose code corrects errors issues as a clean one does, and each
word counts in GRANARY_ECC; one beyond correction aborts the segment and freezes the sequencer with MEM_UNCORRECTABLE (R190), whatever
word it was. -/
def Obligations.ReservedWordRefused : Prop :=
  (∀ (b : BarnId) (u : Upset) (s : State) (c : Instr), s.Canonical → c ∈ issueCmds b u →
    let x := s.barn b
    let w := (s.gran.rd (granKey b x.bank x.pc.toNat)).toNat
    s.canIssue b = true → x.pc.toNat < bankWords x.bank → s.granWordBad (granKey b x.bank x.pc.toNat) = false →
    (wordVer w ≠ 1 ∨ 0x12 < wordOp w) →
    (u ≠ .uncorrectable → ∃ t, exec c s = .next t ∧ t.frozen (Master.barn b) = true
      ∧ (t.reg ((Page.barn b).base + Reg.header.FREEZE)).field 15 8 = Cause.FORMAT
      ∧ (t.reg (Reg.barn.FAULT_PC b)).field 12 0 = x.pc.toNat ∧ t.barns = s.barns ∧ t.engines = s.engines)
    ∧ (u = .uncorrectable → x.handed = false → s.sliceAt b = false → ∃ t, exec c s = .next t ∧ t.frozen (Master.barn b) = true
      ∧ (t.reg ((Page.barn b).base + Reg.header.FREEZE)).field 15 8 = Cause.MEM_UNCORRECTABLE ∧ (t.barn b).phase = .idle))
  ∧ (∀ (b : BarnId) (op w more : Nat) (s : State) (clean corrected uncorrectable : Instr), s.Canonical → s.Stands b op w →
    (issueCmds b .clean)[op]? = some clean → (issueCmds b (.corrected more))[op]? = some corrected →
    (issueCmds b .uncorrectable)[op]? = some uncorrectable →
    exec corrected s = exec clean (s.addFld (Reg.barn.GRANARY_ECC b) 15 0 (more + 1))
    ∧ (s.addFld (Reg.barn.GRANARY_ECC b) 15 0 (more + 1)).fld (Reg.barn.GRANARY_ECC b) 15 0
        = satAdd 16 (s.fld (Reg.barn.GRANARY_ECC b) 15 0) (more + 1)
    ∧ ((s.barn b).handed = false → s.sliceAt b = false → ∃ t, exec uncorrectable s = .next t ∧ t.frozen (Master.barn b) = true
        ∧ (t.reg ((Page.barn b).base + Reg.header.FREEZE)).field 15 8 = Cause.MEM_UNCORRECTABLE
        ∧ (t.barn b).phase = .idle ∧ (t.barn b).pendingRestart = true ∧ t.mem = s.mem ∧ t.gran = s.gran))

/-- No barn instruction changes any memory, the stacks, the clock or the fuses, whether it issues, waits or is refused. The steps of the
array and of Winnow change no memory but the Loft, which a carried spill alone writes; no stack but for a removal that waited, no clock,
no fuse. -/
def Obligations.BarnAndEngineFrames : Prop :=
  (∀ (b : BarnId) (u : Upset) (s t : State) (c : Instr), c ∈ issueCmds b u → exec c s = .next t →
    s.Frame ([.slicePend, .sliceRun] ++ abortParts) t)
  ∧ (∀ (e : EngId) (bin : Fin 2) (u : Upset) (r : Option (Fin 9)) (s t : State) (c : Instr),
    c ∈ [.arrayStep ⟨e, r⟩, .completionTokenReturn e bin, .drainStart e, .winnowRow ⟨⟨e, r⟩, u⟩, .movementComplete e,
      .carriedSpill e] →
    exec c s = .next t →
    s.Frame ([.loft, .freeIx, .springBad] ++ abortParts) t ∧ (c ≠ .carriedSpill e → t.loft = s.loft)
      ∧ (r = none → t.springBad = s.springBad))

/-! ## Engine steps -/

/-- An array step of an OPX or OPXW whose operands are there adds one outer product into its bin, moves the checksum lanes alike, and counts
one work beat and one step of the bin (R51 to R54, R81 to R83). A zero start begins from an empty bin, a reload from its Loft slot (R77,
R84). An array step of a BINWR takes one entry of 576 bytes from its queue as the bin's next row (R75, R177). A completion token returns:
a SETTLING bin with none left under way is HELD, its content as it was (R70). -/
def Obligations.ArrayRuns : Prop :=
  (∀ (e : EngId) (s : State) (o : ArrOp) (rest : List ArrOp) (a b : List (List Val)) (x1 x2 : Engine) (c1 c2 : List Byte) (u v : Nat),
      (s.engine e).arrQ = o :: rest → o.isBinwr = false → o.bin0 < 2 → o.bin1 < 2 → (o.started = false → o.pass = 0) →
      s.sliceHoldsArray e = false → ((s.engine e).bin o.binOf).steps < 1048576 → s.drawFault o.cc true = none →
      (s.engine e).absorb.feederFault = none →
      takeSide o true s.freeIx (s.engine e).absorb = .ok a x1 c1 u → takeSide o false (s.freeIx + u) x1 = .ok b x2 c2 v →
      ∃ t, exec (.arrayStep ⟨e, none⟩) s = .next t
        ∧ t.freeIx = s.freeIx + u + v ∧ (∀ k, k ≠ e.val → t.engine k = s.engine k) ∧ s.Frame [.engines, .freeIx] t
        ∧ (t.engine e).workBeats = (s.engine e).workBeats + 1
        ∧ (o.t + 1 < o.steps → (t.engine e).arrQ = { o with t := o.t + 1, started := true, colScale := c1, rowScale := c2 } :: rest)
        ∧ ((t.engine e).bin o.binOf).steps = ((s.engine e).bin o.binOf).steps + 1
        ∧ (let old := (s.engine e).bin o.binOf
           let loaded := bytesBin (s.loft.rdBytes (loftKey (e / 8) (slotAddr (e % 8) (o.reloadSlot.getD 0))) 73728)
           let content := if o.started then old.content else if o.reloadSlot.isSome then loaded else if o.zs then [] else old.content
           let sums := if o.started then old.sums else if o.reloadSlot.isSome then sumsOfContent loaded
             else if o.zs then Sums.zero else old.sums
           let r := (stepRank o.fmtA).getD 1
           let k : StepKey := { seed := s.seed o.cc, pass := o.pass, layer := o.layer, mb := o.mb, step := s.stepNo, row0 := o.row0,
                                col0 := o.col0, kidx := o.k0 + r * o.t }
           ((t.engine e).bin o.binOf).content = stepContent k o.form (decide (o.fmtA = 0x2) || decide (o.fmtB = 0x2)) a b content
             ∧ ((t.engine e).bin o.binOf).sums = sumsStep o.form r a b sums))
  ∧ (∀ (e : EngId) (s : State) (o : ArrOp) (rest : List ArrOp) (en : IqEntry),
      (s.engine e).arrQ = o :: rest → o.isBinwr = true → o.bin0 < 2 → o.reloadSlot = none → s.sliceHoldsArray e = false →
      (s.engine e).iqHead o.colq = some en → en.bad = [] → en.data.length = 576 →
      ∃ t, exec (.arrayStep ⟨e, none⟩) s = .next t ∧ (∀ k, k ≠ e.val → t.engine k = s.engine k) ∧ s.Frame [.engines] t
        ∧ ((t.engine e).bin o.bin0).content
            = setRow (if o.started then ((s.engine e).bin o.bin0).content else []) o.t (unpackRow en.data)
        ∧ (t.engine e).iq[o.colq]? = ((s.engine e).iq[o.colq]?).map (fun l => l.drop 1)
        ∧ (o.t + 1 < o.steps → (t.engine e).arrQ = { o with t := o.t + 1, started := true } :: rest)
        ∧ (t.engine e).workBeats = (s.engine e).workBeats)
  ∧ (∀ (e : EngId) (n : Fin 2) (s : State) (k : Nat × Bool) (rest : List (Nat × Nat × Bool)),
      (s.engine e).settle = (n.val, k) :: rest → ((s.engine e).bin n).state = .settling →
      ∃ t, exec (.completionTokenReturn e n) s = .next t ∧ (t.engine e).settle = rest
        ∧ ((t.engine e).bin n).state = (if rest.any (fun x => decide (x.1 = n.val)) then .settling else .held)
        ∧ ((t.engine e).bin n).content = ((s.engine e).bin n).content
        ∧ (t.engine e).bin (1 - n.val) = (s.engine e).bin (1 - n.val)
        ∧ (∀ k, k ≠ e.val → t.engine k = s.engine k) ∧ s.Frame [.engines] t)

/-- A drain-side operation at the head of its queue on a HELD or DRAINING bin starts: the bin is DRAINING (R69, R145). A table run whose
last bytes come is kept as the engine's function table, and the drain begins (R129). One row of a drain that has begun: BINRD puts the row
at full width into its output queue, DRAIN what its stages make of it into its queue or its hold buffer (R75, R124, R140). The last row of
a BINRD whose checks pass leaves the bin HELD (R145). A carried spill at the head of the Winnow queue writes the bin's 128 rows to its Loft
slot, whatever its checks find (R77). -/
def Obligations.WinnowRuns : Prop :=
  (∀ (e : EngId) (s : State) (o : WinOp) (rest : List WinOp),
      let c := wcfgOf o.wcfg0 o.wcfg1
      s.winnowHeld e = false → (s.engine e).drain = none → dropWcfg (s.engine e).winQ = o :: rest → o.kind ≠ .spill → o.bin < 2 →
      (((s.engine e).bin o.bin).state = .held ∨ ((s.engine e).bin o.bin).state = .draining) →
      (o.kind = .drain → s.drainOk e o = true ∧ (c.tkind = 2 → (s.engine e).holds.length < 2)
        ∧ (o.tload = true → (s.engine e).iqHead c.tabq = none)
        ∧ ∀ l, l ∈ (s.engine e).iq.toList → ∀ en, en ∈ l → en.bad = []) →
      ∃ t d, exec (.drainStart e) s = .next t ∧ (t.engine e).drain = some d ∧ d.row = 0
        ∧ d.op = { o with form := ((s.engine e).bin o.bin).form, drainNo := (s.engine e).drainNo }
        ∧ (o.kind ≠ .drain ∨ (o.tload = false ∧ c.bias = 0 ∧ c.dmask = false ∧ c.tkind ≠ 2) → d.begun = true)
        ∧ (t.engine e).winQ = rest ∧ ((t.engine e).bin o.bin).state = .draining
        ∧ ((t.engine e).bin o.bin).content = ((s.engine e).bin o.bin).content
        ∧ (t.engine e).holds = (s.engine e).holds ++ (if o.kind = .drain ∧ c.tkind = 2 then
            [⟨o.seq, c.port, c.red, o.layer, o.row0, o.col0, o.cc, [], false⟩] else [])
        ∧ (∀ k, k ≠ e.val → t.engine k = s.engine k) ∧ s.Frame [.engines] t)
  ∧ (∀ (e : EngId) (s : State) (d : DrainRun) (en : IqEntry),
      let c := wcfgOf d.op.wcfg0 d.op.wcfg1
      s.winnowHeld e = false → (s.engine e).drain = some d → d.begun = false → d.op.tload = true → (c.tload = 1 ∨ c.tload = 2) →
      c.bias = 0 → c.dmask = false → c.tkind ≠ 2 → (s.engine e).iqHead c.tabq = some en → en.bad = [] → d.tab.length < 4224 →
      4224 ≤ (d.tab ++ en.data).length → (byteAt (d.tab ++ en.data) 8).toNat ≤ 2 → (byteAt (d.tab ++ en.data) 9).toNat ≤ 2 →
      ∃ t d', exec (.drainStart e) s = .next t ∧ (t.engine e).drain = some d' ∧ d'.begun = true ∧ d'.op = d.op ∧ d'.row = d.row
        ∧ (t.engine e).tables[c.tload - 1]? = some (some ⟨(d.tab ++ en.data).take 4224, d.tabBad⟩)
        ∧ (t.engine e).iq[c.tabq]? = ((s.engine e).iq[c.tabq]?).map (fun l => l.drop 1)
        ∧ (t.engine e).bins = (s.engine e).bins ∧ (∀ k, k ≠ e.val → t.engine k = s.engine k) ∧ s.Frame [.engines] t)
  ∧ (∀ (e : EngId) (u : Upset) (s : State) (d : DrainRun), s.winnowHeld e = false → (s.engine e).drain = some d → d.begun = true →
      (d.op.kind ≠ .drain → (s.engine e).oqLen d.op.outq < 4 →
        (d.row ≠ 127 → ∃ t d', exec (.winnowRow ⟨⟨e, none⟩, u⟩) s = .next t ∧ (t.engine e).drain = some d' ∧ d'.row = d.row + 1
          ∧ d'.op = d.op ∧ (t.engine e).oq[d.op.outq]? = ((s.engine e).oq[d.op.outq]?).map (fun l =>
              l ++ [⟨packRow (binRow ((s.engine e).bin d.op.bin).content d.row), [], false, d.op.seq⟩])
          ∧ (t.engine e).bins = (s.engine e).bins ∧ (∀ k, k ≠ e.val → t.engine k = s.engine k)
          ∧ s.Frame [.regs, .engines] t)
        ∧ (let y := (s.engine e).bin d.op.bin
           d.row = 127 → d.op.bin < 2 → d.fail = none → rowFails y 127 (binRow y.content 127) = false →
           colFails y (addColumns d.colSums (binRow y.content 127)) = none →
           s.regBit (Reg.engine.page e + Reg.header.ERR_INJECT) 0 = false →
           s.regBit (Reg.engine.page e + Reg.header.ERR_INJECT) 1 = false →
           ∃ t, exec (.winnowRow ⟨⟨e, none⟩, u⟩) s = .next t ∧ (t.engine e).drain = none ∧ ((t.engine e).bin d.op.bin).state = .held
            ∧ (t.engine e).oq[d.op.outq]? = ((s.engine e).oq[d.op.outq]?).map (fun l =>
                l ++ [⟨packRow (binRow y.content 127), [], false, d.op.seq⟩])
            ∧ ((t.engine e).bin d.op.bin).content = y.content ∧ (∀ k, k ≠ e.val → t.engine k = s.engine k) ∧ s.Frame [.engines] t))
      ∧ (∀ (o : RowOut) (z : List Byte), d.op.kind = .drain → u = .clean → d.row ≠ 127 →
        (let c := wcfgOf d.op.wcfg0 d.op.wcfg1
         (c.rnd = true ∨ c.dropT ≠ 0 → s.drawFault d.op.cc true = none) ∧
         let k : DrainKey := { seed := s.seed d.op.cc, layer := d.op.layer, mb := d.op.mb, step := s.stepNo, row0 := d.op.row0,
                               col0 := d.op.col0 }
         (c.tkind ≠ 2 → (s.engine e).oqLen c.outq < 4) ∧ (c.tap ≠ 0 → (s.engine e).oqLen c.tapq < 4 ∧ (c.tkind = 2 ∨ c.tapq ≠ c.outq))
          ∧ (if c.act ≠ 0 ∧ c.deriv = true then ∃ en, (s.engine e).iqHead c.zq = some en ∧ en.bad = [] ∧ z = en.data
                ∧ z.length = 128 * elemBits (zfmtCode c.zfmt) / 8
             else z = [])
          ∧ drainRow c k s.freeIx d.op.seq d.op.form d.row ((s.engine e).tables[0]?.getD none) ((s.engine e).tables[1]?.getD none)
              d.bias d.mask d.exps z (binRow ((s.engine e).bin d.op.bin).content d.row) = some o) →
        ∃ t d', exec (.winnowRow ⟨⟨e, none⟩, u⟩) s = .next t ∧ (t.engine e).drain = some d' ∧ d'.row = d.row + 1 ∧ d'.op = d.op
          ∧ (let c := wcfgOf d.op.wcfg0 d.op.wcfg1
             (c.tkind ≠ 2 → (t.engine e).oq[c.outq]? = ((s.engine e).oq[c.outq]?).map (fun l => l ++ [o.main]))
             ∧ (c.tkind = 2 → (t.engine e).holds = (s.engine e).holds.map (fun h =>
                  if h.seq = d.op.seq then { h with rows := h.rows ++ [o.main.data] } else h))
             ∧ (∀ y, c.tap ≠ 0 → o.tap = some y →
                  (t.engine e).oq[c.tapq]? = ((s.engine e).oq[c.tapq]?).map (fun l => l ++ [y])))
          ∧ t.freeIx = s.freeIx + o.used ∧ (t.engine e).bins = (s.engine e).bins ∧ (∀ k, k ≠ e.val → t.engine k = s.engine k)
          ∧ s.Frame ([.engines, .freeIx] ++ reportParts) t))
  ∧ (∀ (e : EngId) (s : State) (o : WinOp) (rest : List WinOp), s.winnowHeld e = false → (s.engine e).drain = none →
      dropWcfg (s.engine e).winQ = o :: rest → o.kind = .spill → o.bin < 2 →
      (((s.engine e).bin o.bin).state = .held ∨ ((s.engine e).bin o.bin).state = .draining) →
      ∃ t, exec (.carriedSpill e) s = .next t
        ∧ t.loft = s.loft.wrBytes (loftKey (e / 8) (slotAddr (e % 8) o.slot)) (binBytes ((s.engine e).bin o.bin).content)
        ∧ s.Frame ([.loft, .freeIx, .regionActs] ++ abortParts) t)

/-- A run of a read generator enters its input queue with the bytes of the run: from the Crib, from the barn's Loft, or from device memory
where its pools have a tag and its lines read; the generator goes on to its next run, and the feeders take what their slabs need (R66,
R165). A write generator writes the entry at the head of its input or output queue at its run address, in the Crib, the Loft or device
memory (R165). An address generator of a MILLOP applies the run at the head of the operand queue at its address (R179). -/
def Obligations.GeneratorsRun : Prop :=
  (∀ (e : EngId) (n : Fin 8) (s : State) (a : Arming) (addr : Int),
      let took (d : List Byte) (bad : List (Nat × Bool)) : Engine :=
        (({ s.engine e with iq := modAt (s.engine e).iq n (fun l => l ++ [runEntry a addr d bad]) } : Engine).genAdvance n).absorb
      s.runOf e n = some (a, addr) → a.d.dir = 0 → (s.engine e).iqLen n < 4 → (s.engine e).runBad n a addr = false →
      s.runWaits e a.d.space addr.toNat a.d.len = false →
      (a.d.space = 0 → ∃ t, exec (.generatorRun ⟨e, .clean⟩ ⟨n, .good⟩) s = .next t
        ∧ t.engine e = took (s.crib.rdBytes (cribKey e addr.toNat) a.d.len) (s.cribBadAt e addr.toNat a.d.len)
        ∧ (∀ k, k ≠ e.val → t.engine k = s.engine k) ∧ s.Frame [.barns, .engines] t)
      ∧ (a.d.space = 1 → ∃ t, exec (.generatorRun ⟨e, .clean⟩ ⟨n, .good⟩) s = .next t
        ∧ t.engine e = took (s.loft.rdBytes (loftKey (e / 8) addr.toNat) a.d.len) []
        ∧ (∀ k, k ≠ e.val → t.engine k = s.engine k) ∧ s.Frame [.barns, .engines] t)
      ∧ (∀ d, a.d.space = 2 → s.fatal = false → s.injectCredit = false →
        s.tagsReady (Master.barn (e / 8)) (memPools addr.toNat a.d.len) = true →
        (s.memRead (Master.barn (e / 8)) addr.toNat a.d.len).2 = some d →
        ∃ t, exec (.generatorRun ⟨e, .clean⟩ ⟨n, .good⟩) s = .next t ∧ t.engine e = took d []
          ∧ (∀ k, k ≠ e.val → t.engine k = s.engine k) ∧ s.Frame ([.barns, .engines, .memStacks, .stackCores, .pools] ++ reportParts) t))
  ∧ (∀ (e : EngId) (n : Fin 8) (s : State) (a : Arming) (addr : Int) (d : List Byte) (en : List Bool),
      s.runOf e n = some (a, addr) → a.d.dir = 1 → d.length = a.d.len → a.runOk addr = true →
      s.runWaits e a.d.space addr.toNat a.d.len = false →
      (∃ y, a.d.qsel < 8 ∧ (s.engine e).iqHead a.d.qsel = some y ∧ (s.engine e).movesNow a.seq = true ∧ y.bad = [] ∧ y.data = d ∧ en = [])
        ∨ (∃ y l, 8 ≤ a.d.qsel ∧ (s.engine e).oq[a.d.qsel - 8]? = some (y :: l) ∧ y.skip = false ∧ y.data = d ∧ y.enables = en) →
      let left (t : State) : Prop :=
        (a.d.qsel < 8 → (t.engine e).iq[a.d.qsel]? = ((s.engine e).iq[a.d.qsel]?).map (fun l => l.drop 1))
          ∧ (8 ≤ a.d.qsel → (t.engine e).oq[a.d.qsel - 8]? = ((s.engine e).oq[a.d.qsel - 8]?).map (fun l => l.drop 1))
          ∧ (t.engine e).gens[n.val]? = ((s.engine e).gens[n.val]?).map Gen.advance ∧ ∀ k, k ≠ e.val → t.engine k = s.engine k
      (a.d.space = 0 → ∃ t, exec (.writeGeneratorWrite e ⟨n, .good⟩) s = .next t ∧ left t
        ∧ t.crib = s.crib.wrMasked (cribKey e addr.toNat) d en ∧ s.Frame [.crib, .cribBad, .engines] t)
      ∧ (a.d.space = 1 → ∃ t, exec (.writeGeneratorWrite e ⟨n, .good⟩) s = .next t ∧ left t
        ∧ t.loft = s.loft.wrMasked (loftKey (e / 8) addr.toNat) d en ∧ s.Frame [.loft, .engines] t)
      ∧ (a.d.space = 2 → s.fatal = false → s.injectCredit = false → s.tagsReady (Master.barn (e / 8)) (memPools addr.toNat a.d.len) = true →
        (s.memWriteMasked (Master.barn (e / 8)) addr.toNat d en).2 = true →
        ∃ t, exec (.writeGeneratorWrite e ⟨n, .good⟩) s = .next t ∧ left t
          ∧ t.mem = (s.memWriteMasked (Master.barn (e / 8)) addr.toNat d en).1.mem
          ∧ s.Frame ([.mem, .memTag, .engines, .memStacks, .stackCores, .pools] ++ reportParts) t))
  ∧ (∀ (e : EngId) (n : Fin 8) (s : State) (a : Arming) (addr : Int) (o : MovOp) (rest : List MovOp) (en : IqEntry) (op ty : Nat),
      s.runOf e n = some (a, addr) → a.d.dir = 2 → (s.engine e).movQ = o :: rest → o.kind = .millop → o.seq = a.seq →
      (s.engine e).iqHead o.q = some en → en.bad = [] → en.data.length = a.d.len → millCode o.mop = some (op, ty) →
      a.runOk addr = true → millAligned ty addr.toNat a.d.len = true → s.runWaits e 2 addr.toNat a.d.len = false →
      s.sliceHoldsMill (addrStack addr.toNat) = false → s.fatal = false → s.injectCredit = false →
      s.tagsReady (Master.barn (e / 8)) (memPools addr.toNat a.d.len) = true →
      (s.millRun (Master.barn (e / 8)) op ty addr.toNat en.data).2 = true →
      ∃ t, exec (.writeGeneratorWrite e ⟨n, .good⟩) s = .next t
        ∧ t.mem = (s.millRun (Master.barn (e / 8)) op ty addr.toNat en.data).1.mem
        ∧ (t.engine e).iq[o.q]? = ((s.engine e).iq[o.q]?).map (fun l => l.drop 1)
        ∧ (t.engine e).gens[n.val]? = ((s.engine e).gens[n.val]?).map Gen.advance ∧ (∀ k, k ≠ e.val → t.engine k = s.engine k)
        ∧ s.Frame ([.mem, .memTag, .engines, .memStacks, .stackCores, .pools] ++ reportParts) t)

/-- The movement operation at the head of its queue completes once its generators and its queue hold nothing of it (R180). A released tile
that its port expects next leaves its hold buffer: the rows of a tile that another position has contributed to before wait at the port for
the upstream rows; the rows of a tile that this position contributes to first, for another owner, are sent on (R140, R312, R313). -/
def Obligations.MovementAndHandover : Prop :=
  (∀ (e : EngId) (s : State) (o : MovOp) (rest : List MovOp), (s.engine e).movQ = o :: rest →
      ((s.engine e).moveDone o = true → exec (.movementComplete e) s = .next (s.setEngine e { s.engine e with movQ := rest }))
      ∧ ((s.engine e).moveDone o = false → exec (.movementComplete e) s = .next s))
  ∧ (∀ (e : EngId) (s : State) (h : HoldBuf) (i t : Nat) (r : CollRec),
      let j := s.barnJob (e / 8) h.cc
      (s.engine e).holds.find? (fun h => h.released) = some h → s.tileRec j h = some (i, r) → r.job = j →
      r.tileOf h = (t : Int) → t < r.tiles → s.jobRuns j = true → (s.prog i).nextTile = t → s.servesRec i r = true →
      s.sliceHoldsPort h.port = false → s.up = true → s.fatal = false → h.port < 24 →
      (∀ d, d ∈ h.rows → r.localGood d = true) →
      let took (q : State) : Prop := (q.engine e).holds = (s.engine e).holds.filter (fun y => decide (y.seq ≠ h.seq))
        ∧ (q.barn (e / 8)).handed = true ∧ (q.prog i).nextTile = t + 1 ∧ (∀ k, k ≠ e.val → q.engine k = s.engine k)
        ∧ (∀ k, k ≠ h.port → q.port k = s.port k)
      (r.first t = false → ∃ q, exec (.weirTileHandover e) s = .next q ∧ took q
        ∧ (q.port h.port).localRows = (s.port h.port).localRows ++ h.rows.zipIdx.map (fun x => ⟨i, t, x.2, x.1, s.time⟩)
        ∧ s.Frame [.barns, .engines, .ports, .coll] q)
      ∧ (r.first t = true → r.owner t ≠ r.pos → ∃ q, exec (.weirTileHandover e) s = .next q ∧ took q
        ∧ (q.port h.port).rowsDone = (s.port h.port).rowsDone + h.rows.length ∧ q.freeIx = s.freeIx + h.rows.length
        ∧ s.Frame [.barns, .engines, .ports, .coll, .freeIx] q))

/-! ## Segments and steps -/

/-- A main-bank boundary that nothing holds, with no span, swap or removal waiting: END leaves the barn IDLE at word 0, YIELD begins the
next segment at the next word with its restart snapshot (R185, R200). With a swap waiting that no slice puts off, the banks change roles,
the loops close, both WCFG halves are 0, and the barn stands at word 0 (R191, R192). START in SEQ_CTRL, and a doorbell, start an IDLE barn
at word 0 of its active bank; a barn that runs is not touched (R192, R443). A write to the MSI-X table in the Bell window sets its word
(R443). GO in SEG_RESTART with PENDING restores the restart snapshot: the segment replays, and the SIGNALs already sent are owed as
suppressions; without PENDING it does nothing (R202). A START or a GO that a waiting commit holds at the barn waits for the commit
(R474; assumption 106). -/
def Obligations.SegmentsPassStartReplay : Prop :=
  (∀ (b : BarnId) (s : State) (y : Boundary),
      let x := s.barn b
      x.boundary = some y → s.frozen (Master.barn b) = false → s.barnDone b = true → s.queuesClear b = true →
      y.held = false → y.stale = false → y.cc = false → (s.span b).live = false → s.tally.state = .idle → x.ccSave = none →
      x.offline = false → x.offApplied = false → x.pageHalt = false → (∀ i, i < 8 → (s.engine (8 * b + i)).offline = false) →
      (x.swapPending = false → y.isEnd = true → exec (.segmentBoundary b) s = .next (s.setBarn b
        { x with phase := .idle, pc := 0, boundary := none, waiting := none, issued := 0, pageHalt := false }))
      ∧ (x.swapPending = false → y.isEnd = false →
        ∃ t, exec (.segmentBoundary b) s = .next t ∧ (t.barn b).phase = x.phase ∧ (t.barn b).pc = y.addr + 1
          ∧ (t.barn b).boundary = none ∧ (t.barn b).issued = 0 ∧ (t.barn b).loops = x.loops
          ∧ (t.barn b).snap = ⟨y.addr + 1, false, x.active, x.swapped, x.loops, x.wcfg0, x.wcfg1, x.tloadDue, []⟩
          ∧ (t.barn b).segSignals = 0 ∧ (t.barn b).pendingRestart = false
          ∧ (∀ k, k ≠ b.val → t.barn k = s.barn k) ∧ s.Frame [.barns] t)
      ∧ (x.swapPending = true → s.Canonical → s.swapHeld b = false → (s.span b).fromNew = false →
        ∃ t, exec (.segmentBoundary b) s = .next t ∧ (t.barn b).phase = (if y.isEnd then .idle else x.phase) ∧ (t.barn b).pc = 0
          ∧ (t.barn b).active = !x.active ∧ (t.barn b).swapPending = false ∧ (t.barn b).loops = [] ∧ (t.barn b).wcfg0 = 0
          ∧ (t.barn b).wcfg1 = 0 ∧ (t.barn b).boundary = none
          ∧ (∀ a, a ≠ Reg.barn.BANK_SWAP b → t.reg a = s.reg a)
          ∧ (∀ k, k ≠ b.val → t.barn k = s.barn k) ∧ s.Frame [.regs, .barns] t))
  ∧ (∀ (w : Writer) (b : BarnId) (s : State) (off : BitVec 16) (v : Word) (c : Instr), (s.span b).live = false →
      (c = .start w b ∧ s.takesClean w (Reg.barn.SEQ_CTRL b) = true)
        ∨ (c = .bell off ⟨.write v, .good⟩ ∧ off.toNat = 4 * b ∧ s.bellOpen = true ∧ s.sluiceArmed .host = false) →
      (s.frozen (Master.barn b) = false → (s.barn b).offApplied = false → s.up = true → (s.barn b).phase = .idle →
        s.commitHolds b = false → ∃ t, exec c s = .next t
          ∧ (t.barn b).phase = .run ∧ (t.barn b).pc = 0 ∧ (t.barn b).loops = [] ∧ (t.barn b).ccSave = none
          ∧ (t.barn b).active = (s.barn b).active ∧ (t.barn b).snap.pc = 0 ∧ (t.barn b).segSignals = 0
          ∧ (∀ k, k ≠ b.val → t.barn k = s.barn k) ∧ s.Frame [.barns] t)
      ∧ (s.frozen (Master.barn b) = false → (s.barn b).offApplied = false → s.up = true → (s.barn b).phase = .idle →
        s.commitHolds b = true → exec c s = .next (s.setBarn b { s.barn b with goHeld := some .start }))
      ∧ ((s.barn b).phase ≠ .idle → exec c s = .next s))
  ∧ (∀ (off : BitVec 16) (v : Word) (s : State), s.Canonical → s.bellOpen = true → s.sluiceArmed .host = false →
      off.toNat % 4 = 0 → 0x8000 ≤ off.toNat → off.toNat < 0x8400 →
      ∃ t, exec (.bell off ⟨.write v, .good⟩) s = .next t
        ∧ CMap.get msixDefault t.host.msix ((off.toNat - 0x8000) / 4) = v ∧ s.Frame [.host] t)
  ∧ (∀ (w : Writer) (b : BarnId) (s : State), s.takesClean w (Reg.barn.SEG_RESTART b) = true → (s.span b).live = false →
      (s.span b).voided = false →
      ((s.barn b).pendingRestart = true → s.frozen (Master.barn b) = false → (s.barn b).phase = .idle →
        (s.barn b).offApplied = false → s.commitHolds b = false → ∃ t, exec (.segRestartGo w b) s = .next t
          ∧ (t.barn b).pc = (s.barn b).snap.pc ∧ (t.barn b).loops = (s.barn b).snap.loops
          ∧ (t.barn b).swapped = (s.barn b).snap.swapped ∧ (t.barn b).wcfg0 = (s.barn b).snap.wcfg0
          ∧ (t.barn b).wcfg1 = (s.barn b).snap.wcfg1 ∧ (t.barn b).active = (s.barn b).snap.active
          ∧ (t.barn b).phase = (if (s.barn b).snap.ccBank then .cc else .run)
          ∧ (t.barn b).suppress = (s.barn b).segSignals ∧ (t.barn b).pendingRestart = false
          ∧ (∀ k, k ≠ b.val → t.barn k = s.barn k) ∧ s.Frame [.barns] t)
      ∧ ((s.barn b).pendingRestart = true → s.frozen (Master.barn b) = false → (s.barn b).phase = .idle →
        (s.barn b).offApplied = false → s.commitHolds b = true →
        exec (.segRestartGo w b) s = .next (s.setBarn b { s.barn b with goHeld := some .go }))
      ∧ ((s.barn b).pendingRestart = false → exec (.segRestartGo w b) s = .next s))

/-- The step boundary whose conditions hold, with no commit and no checkpoint record to make: STEP counts up, every job is in COMPUTE with
its verdict awaited, and the step fields of every engine are 0, those of a retired one as they were (R92, R144, R351). With no live job, no
stack in self-refresh, a good seed and no Flume to restart, the restart of an aborted step restarts every barn of it that has a segment to
repeat, and leaves the others IDLE (R207). -/
def Obligations.StepsAdvanceAndRestart : Prop :=
  (∀ s : State, s.Canonical → s.up = true → s.fatal = false → s.stepReady = true → s.tally.stepHeld = false →
      s.tally.state = .idle → s.tally.stepCommitted = false → s.regBit Reg.global.CKPT_REC_HI 31 = false →
      ∃ t, exec .stepBoundary s = .next t ∧ t.reg Reg.spring.STEP = s.reg Reg.spring.STEP + 1
        ∧ (∀ j, j < 16 → (t.job j).phase = 0 ∧ (t.job j).aborted = false ∧ t.reg (Reg.global.VERDICT j) = 0)
        ∧ (∀ e, e < 64 → (s.engine e).retired = false → t.reg (Reg.engine.SC_NF_STEP e) = 0 ∧ t.reg (Reg.engine.SC_FIRST e) = 0)
        ∧ (∀ e, e < 64 → (s.engine e).retired = true → t.reg (Reg.engine.SC_NF_STEP e) = s.reg (Reg.engine.SC_NF_STEP e)
            ∧ t.reg (Reg.engine.SC_FIRST e) = s.reg (Reg.engine.SC_FIRST e))
        ∧ t.tally.stepHeld = false ∧ t.lsdPending = none
        ∧ s.Frame ([.barns, .engines, .flumes, .memStacks, .stackCores, .springBad, .ports, .jobs, .coll, .chanSent, .chanLanded, .lsdPending]
          ++ reportParts) t)
  ∧ (∀ s : State, s.up = true → s.fatal = false → s.fpbRuns = true → s.liveJobs = [] →
      (∀ j, j < 16 → (s.job j).aborted = false ∧ (s.job j).late = false) →
      (∀ k, k < 16 → s.selfRefresh k = false) → s.springBad = [] → (∀ f, f < 32 → (s.flume f).stepAborted = false) →
      ∃ t, exec .stepRestart s = .next t ∧ s.Frame [.barns, .tally] t
        ∧ ∀ b : BarnId, (s.barn b).stepAborted = true →
          ((s.barn b).pendingRestart = true → s.frozen (Master.barn b) = false → (s.barn b).phase = .idle →
            (s.barn b).offApplied = false → s.commitHolds b = false →
            (t.barn b).pc = (s.barn b).snap.pc ∧ (t.barn b).stepAborted = false
              ∧ (t.barn b).phase = (if (s.barn b).snap.ccBank then .cc else .run))
          ∧ ((s.barn b).pendingRestart = false → t.barn b = { s.barn b with stepAborted := false }))

/-! ## The Tally -/

/-- BEGIN opens an IDLE Tally for its writer with the next transaction number, and has no effect in another state (R469, R470). ROLLBACK by
the owner of the open transaction discards the shadows with RESULT 4; COMMIT and ROLLBACK by another master are refused with TALLY_CONFLICT,
the shadows stand, and the master freezes (R469). An RWS write by the owner sets the register's shadow, with bad parity where ERR_INJECT
asks for it, and no register (R406, R471); one that its own check refuses sets nothing and freezes nobody (R471); a 4,097th register sets
OVERFLOW (R471); anyone else's write is refused with TALLY_CONFLICT, and the writer freezes (R469). -/
def Obligations.TallyTransactions : Prop :=
  (∀ (w : Writer) (s : State), s.takesClean w Reg.tally.TX_CTRL = true →
      (s.tally.state = .idle → exec (.txBegin w) s = .next { s with tally := { s.tally with
        state := .opened, owner := w.id, overflow := false, shadows := [], nShadows := 0
        txId := if s.tally.txId = 0xFFFF then 1 else s.tally.txId + 1 } })
      ∧ (s.tally.state ≠ .idle → exec (.txBegin w) s = .next s)
      ∧ (s.tally.state = .opened → s.tally.owner = w.id → exec (.rollback w) s = .next { s with tally := { s.tally with
        state := .idle, owner := Master.none, shadows := [], result := 4 } })
      ∧ (s.tally.state ≠ .opened → exec (.rollback w) s = .next s ∧ exec (.commit w) s = .next s)
      ∧ (∀ c, c ∈ [.rollback w, .commit w] → s.Canonical → s.tally.state = .opened → s.tally.owner ≠ w.id →
          ∃ t, exec c s = .next t ∧ t.frozen w.id = true
            ∧ (t.reg ((masterPage w.id).base + Reg.header.FREEZE)).field 15 8 = Cause.TALLY_CONFLICT
            ∧ t.tally.state = .opened ∧ t.tally.owner = s.tally.owner ∧ t.tally.shadows = s.tally.shadows
            ∧ s.Frame reportParts t))
  ∧ (∀ (w : Writer) (a : BitVec 26) (v : Word) (s : State), s.Canonical → s.takesClean w a.toNat = true → rwsMask a.toNat ≠ 0 →
      s.absentPage a.toNat = false →
      let inj := Reg.tally.page + Reg.header.ERR_INJECT
      (s.tally.state = .opened → s.tally.owner = w.id →
        (s.rwsRefusal w a.toNat v = none → (s.shadowed a.toNat = true ∨ s.tally.nShadows < 4096) →
          ∃ t, exec (.rwsWrite w a v) s = .next t ∧ t.shadow a.toNat = some ⟨a.toNat, v, !s.regBit inj 0⟩
            ∧ (∀ a', a' ≠ a.toNat → t.shadow a' = s.shadow a') ∧ t.regBit inj 0 = false
            ∧ (∀ a', a' ≠ inj → t.reg a' = s.reg a') ∧ s.Frame [.regs, .tally] t)
        ∧ (∀ cause, s.rwsRefusal w a.toNat v = some cause →
          ∃ t, exec (.rwsWrite w a v) s = .next t ∧ t.tally = s.tally ∧ t.frozen w.id = false ∧ s.Frame reportParts t)
        ∧ (s.rwsRefusal w a.toNat v = none → s.shadowed a.toNat = false → 4096 ≤ s.tally.nShadows →
          ∃ t, exec (.rwsWrite w a v) s = .next t ∧ t.tally = { s.tally with overflow := true } ∧ t.frozen w.id = false
            ∧ s.Frame reportParts t))
      ∧ (¬ (s.tally.state = .opened ∧ s.tally.owner = w.id) → ∃ t, exec (.rwsWrite w a v) s = .next t ∧ t.frozen w.id = true
          ∧ (t.reg ((masterPage w.id).base + Reg.header.FREEZE)).field 15 8 = Cause.TALLY_CONFLICT
          ∧ t.tally.shadows = s.tally.shadows ∧ s.Frame reportParts t))

/-- A COMMIT by the owner whose checks pass and that carries no admission waits for its safe points; nothing applies yet (R469, R472). While
a table that the checks read stands in memory that waits they are due (R268, R472; assumption 77: the model's reading). A COMMIT with an
overflowed table of shadows is refused with FORMAT: RESULT 2, the shadows discarded (R469, R472). A commit of one shadow on a Gauge, engine
or port page with every touched block at its safe point applies: the shadow's RWS bits stand in the register, and the transaction ends with
RESULT 1 (R469, R474). An admission that applies is live with its records (R220). A commit that has waited TALLY_TIMEOUT ends without
applying: RESULT 3, the shadows discarded, no register changed, no event (R469). -/
def Obligations.CommitsEnd : Prop :=
  (∀ (w : Writer) (s : State), s.takesClean w Reg.tally.TX_CTRL = true → s.tally.state = .opened → s.tally.owner = w.id →
      s.tally.shadows.any (fun x => !x.good) = false →
      let begun : Tally := { s.tally with
        state := .committing, elapsed := 0, nextRecs := [], nextMargin := 0, checksDue := true
        timeoutTicks := ticksOfMs (s.fld Reg.tally.TALLY_TIMEOUT 15 0)
        commitEpoch := BitVec.ofNat 16 (s.fld Reg.global.AVAIL_EPOCH 15 0) }
      (s.tally.overflow = false → s.pageChecks.2 = none → s.carriesAdm = false → s.injectCredit = false →
        (∀ x, x ∈ s.tableReads → s.memWaits x.2.1 x.2.2 = false
          ∧ (x.1 ≠ Master.none → s.tagsReady x.1 (memPools x.2.1 x.2.2) = true)) →
        ∃ t, exec (.commit w) s = .next t
          ∧ t.tally = { begun with checksDue := false, nextColls := s.pageChecks.1.tally.nextColls }
          ∧ s.Frame ([.memStacks, .stackCores, .pools] ++ reportParts) t)
      ∧ (s.tally.overflow = false → (∃ x, x ∈ s.tableReads ∧ s.memWaits x.2.1 x.2.2 = true) →
        exec (.commit w) s = .next { s with tally := begun })
      ∧ (s.tally.overflow = true → ∃ t, exec (.commit w) s = .next t ∧ t.tally.state = .idle ∧ t.tally.result = 2
          ∧ t.tally.lastCause = Cause.FORMAT ∧ t.tally.shadows = [] ∧ t.tally.failed = satInc 16 s.tally.failed
          ∧ s.Frame ([.barns, .flumes] ++ reportParts) t))
  ∧ (∀ (a : Nat) (v : Word) (good : Bool) (s : State), s.Canonical → s.tally.state = .committing → s.allSafe = true →
      s.tally.shadows = [⟨a, v, good⟩] → ((pageOf a = .gauge ∧ a ≠ Reg.gauge.POL_PCAP) ∨ (∃ e, pageOf a = .engine e)
        ∨ (∃ p, pageOf a = .port p)) → a ≠ (pageOf a).base + Reg.header.TALLY →
      ∃ t, exec .tallyApply s = .next t ∧ t.reg a = mergeRws a (s.reg a) v ∧ t.tally.state = .idle
        ∧ t.tally.owner = Master.none ∧ t.tally.shadows = [] ∧ t.tally.result = 1 ∧ t.tally.applied = satInc 16 s.tally.applied)
  ∧ (∀ s : State, s.tally.state = .committing → s.allSafe = true → s.carriesAdm = true →
      (∃ r ∈ s.tally.nextRecs, r.barn < 8 ∧ r.catchCrop = false) →
      ∃ t, exec .tallyApply s = .next t ∧ t.tally.live = true ∧ t.tally.recs = s.tally.nextRecs ∧ t.tally.state = .idle
        ∧ t.tally.shadows = [] ∧ t.tally.result = 1)
  ∧ (∀ s : State, s.tally.state = .committing → s.tally.timeoutTicks ≤ s.tally.elapsed →
      ∃ t, exec .tallyTimeout s = .next t ∧ t.tally.state = .idle ∧ t.tally.result = 3 ∧ t.tally.shadows = []
        ∧ t.tally.failed = satInc 16 s.tally.failed ∧ (∀ b, b < 8 → ∀ y, (t.barn b).boundary = some y → y.held = false)
        ∧ s.Frame [.tally, .barns, .flumes] t)

/-- A released span past its deadline is counted in ADM_MISS with its record and reported once (R224). A cadence tick of the live admission
releases every record with REL = 1 that waits for it (R226); where no cadence span was still open, no register changes (R227). -/
def Obligations.SpansMissAndRelease : Prop :=
  (∀ (b : BarnId) (s : State), s.Canonical → s.missNow b = true →
    ∃ t, exec (.deadlineMiss b) s = .next t ∧ t.fld Reg.tally.ADM_MISS 15 0 = satInc 16 (s.fld Reg.tally.ADM_MISS 15 0)
      ∧ t.fld Reg.tally.ADM_MISS 29 20 = (s.span b).recIx % 1024 ∧ t.missNow b = false ∧ s.Frame reportParts t)
  ∧ (∀ s : State, s.tally.live = true → s.tally.cadence = true → s.tally.cadPeriod ≠ 0 →
      10000 * s.tally.cadPeriod ≤ s.tally.cadElapsed →
      ∃ t, exec .cadenceTick s = .next t
        ∧ t.tally.cadElapsed = s.tally.cadElapsed - 10000 * s.tally.cadPeriod
        ∧ (∀ (b : BarnId) (r : AdmRec), s.curRec b = some r → r.rel = 1 → (s.span b).released = false → (s.span b).voided = false →
            (t.span b).released = true ∧ (t.span b).timer = 0)
        ∧ ((List.range 8).any s.cadenceOpen = false → t.regs = s.regs) ∧ s.Frame [.regs, .barns, .tally] t)

/-- UNIT_OFFLINE by the management port or FP-B marks the unit off line and advances the availability epoch; a unit whose table row lets it
go at once, with no slice in it, is out of service, and another waits for its boundary (R209, R212, R213). Another master's write is
refused with STATE_DISAGREE, and the master freezes (R212). -/
def Obligations.UnitOfflineAdvancesEpoch : Prop :=
  ∀ (w : Writer) (v : Word) (s : State), s.Canonical → s.takesClean w Reg.global.UNIT_OFFLINE = true →
    let ty := v.field 11 8
    let u := v.field 7 0
    let gone := s.removeNow ty u && !s.sliceInUnit ty u
    (w ∈ [.mgmt, .fp 0] → bit v.toNat 31 = true → s.unitExists ty u = true → s.tally.state ≠ .committing →
      ∃ t, exec (.unitOffline w v) s = .next t
        ∧ t.fld Reg.global.AVAIL_EPOCH 15 0 = (s.fld Reg.global.AVAIL_EPOCH 15 0 + 1) % 65536
        ∧ (ty = 0 → (t.engine u).offline = true ∧ (t.engine u).offApplied = ((s.engine u).offApplied || gone))
        ∧ (ty = 1 → (t.stack u).pondOffline = true ∧ (t.stack u).pondOffApplied = ((s.stack u).pondOffApplied || gone))
        ∧ (ty = 2 → (t.stack u).lakeOffline = true ∧ (t.stack u).lakeOffApplied = ((s.stack u).lakeOffApplied || gone))
        ∧ (ty = 3 → (t.port u).offline = true ∧ (t.port u).offApplied = ((s.port u).offApplied || gone))
        ∧ (ty = 4 → (t.flume u).offline = true ∧ (t.flume u).offApplied = ((s.flume u).offApplied || gone))
        ∧ (ty = 5 → (t.barn u).offline = true ∧ (t.barn u).offApplied = ((s.barn u).offApplied || gone))
        ∧ t.mem = s.mem ∧ t.crib = s.crib
        ∧ s.Frame ([.barns, .engines, .flumes, .memStacks, .stackCores, .ports, .pools] ++ reportParts) t)
    ∧ (w ∉ [.mgmt, .fp 0] → ∃ t, exec (.unitOffline w v) s = .next t ∧ t.frozen w.id = true
        ∧ (t.reg ((masterPage w.id).base + Reg.header.FREEZE)).field 15 8 = Cause.STATE_DISAGREE ∧ s.Frame reportParts t
        ∧ t.fld Reg.global.AVAIL_EPOCH 15 0 = s.fld Reg.global.AVAIL_EPOCH 15 0)

/-! ## Flumes -/

/-- ARM GO: with a slot free its fetch begins; while another arming is checked it waits its turn; in ABORTED, or with both slots full, it is
refused with REARM_BUSY, and for a Flume out of service with UNIT_ABSENT, and the writer freezes (R213, R279, R280). A fetch that no tag
serves waits for one (R279). A checked descriptor fills the slot: it becomes current at once in an IDLE Flume, with PRELOAD added to TOKIN,
else next; one whose check fails with a freeze leaves the slots as they were, and the armer freezes (R276, R280, R281). -/
def Obligations.FlumeArms : Prop :=
  ∀ (w : Writer) (f : FlumeId) (s : State), s.Canonical →
    let x := s.flume f
    let refused (cause : Nat) : Prop := ∃ t, exec (.armGo w f) s = .next t ∧ t.frozen w.id = true
      ∧ (t.reg ((masterPage w.id).base + Reg.header.FREEZE)).field 15 8 = cause ∧ t.flumes = s.flumes
    (s.takesClean w (Reg.flume.ARM_CTRL f) = true →
      (x.fetchHolds = true ∨ x.heldArms ≠ [] → exec (.armGo w f) s = .next (s.setFlume f { x with heldArms := x.heldArms ++ [w] }))
      ∧ (x.fetchHolds = false → x.heldArms = [] →
        (s.flumeGone f = true → refused Cause.UNIT_ABSENT)
        ∧ (s.flumeGone f = false → (x.state = .idle ∨ x.state = .active) → x.nextFull = false →
          exec (.armGo w f) s = .next (s.setFlume f { x with fetch := some ⟨s.armAddr f, .arm w⟩ }))
        ∧ (s.flumeGone f = false → (x.state = .activeNext ∨ x.state = .aborted ∨ x.nextFull = true) → refused Cause.REARM_BUSY)))
    ∧ (∀ (a : Nat) (who : FetchFor), x.fetch = some ⟨a, who⟩ → (who = .arm w ∨ who = .link) → x.heldArms = [] →
        s.flumeRuns f = true → s.fetchWaits f ⟨a, who⟩ = false → s.injectCredit = false →
        (s.tagsReady (Master.flume f) (s.fetchNeeds f ⟨a, who⟩) = false →
          ∃ t, exec (.descriptorFetch ⟨f, .good⟩) s = .next t ∧ s.Frame [.pools] t)
        ∧ (s.tagsReady (Master.flume f) (s.fetchNeeds f ⟨a, who⟩) = true →
          (∀ d, (s.readDesc f a).2 = .ok d → x.state = .active → ∃ t, exec (.descriptorFetch ⟨f, .good⟩) s = .next t
            ∧ t.flume f = { x with fetch := none, nxt := some (a, d), state := .activeNext }
            ∧ (∀ k, k ≠ f.val → t.flume k = s.flume k) ∧ s.Frame ([.flumes, .memStacks, .stackCores, .pools] ++ reportParts) t)
          ∧ (∀ d, (s.readDesc f a).2 = .ok d → who = .arm w → x.state = .idle → s.tokin f + d.preload ≤ 65535 →
            ∃ t, exec (.descriptorFetch ⟨f, .good⟩) s = .next t ∧ t.tokin f = s.tokin f + d.preload
            ∧ t.flume f = { x with
                cur := some (newTask a d (s.tokin f) 0), curAddr := a, nxt := none, heldNext := false, gated := false
                hgWait := false, state := .active, stepAborted := false, abortCause := none, resumeDue := false, nextAt := none
                fetch := d.link.map (fun b => ⟨b, .link⟩) }
            ∧ (∀ k, k ≠ f.val → t.flume k = s.flume k) ∧ s.Frame ([.flumes, .memStacks, .stackCores, .pools] ++ reportParts) t)
          ∧ (∀ cause, (s.readDesc f a).2 = .error (cause, true) → who = .arm w →
            ∃ t, exec (.descriptorFetch ⟨f, .good⟩) s = .next t ∧ t.frozen w.id = true ∧ t.flume f = { x with fetch := none }
            ∧ (∀ k, k ≠ f.val → t.flume k = s.flume k))))

/-- An element that nothing holds and whose pools have tags moves: its bytes are read at its source, written at its destination and counted,
its gate paid (R274, R275, R282). Nothing but the destination's space changes its bytes, and in device memory only the destination's bytes.
One whose gate is closed waits (R282). An element to or from a Weir becomes its bulk requests, each with a tag of its port (R285, R307,
R336). -/
def Obligations.FlumeElementMoves : Prop :=
  ∀ (f : FlumeId) (host : List Byte) (s : State) (t : Task), s.Canonical →
    let d := t.d
    let x := d.element t.issued
    let due := t.gateDue
    (s.flume f).bulkTodo = [] → (host = [] ∨ (s.flume f).hostDue = []) → s.issueTask f = some t →
    (s.gateOpen f t = false →
      exec (.flumeElementIssue f ⟨⟨host, .good⟩, .clean⟩) s = .next (s.setFlume f { s.flume f with gated := true }))
    ∧ (s.gateOpen f t = true → s.headgateOpen f d.elem = true →
        inSpace d.srcSpace x.src d.elem = true → inSpace d.dstSpace x.dst d.elem = true →
        (d.hostAddr x).bind (fun va => s.needsPage va d.elem) = none → s.elemWaits d x = false →
        s.tagsReady (Master.flume f) (d.needs x) = true → s.injectCredit = false →
        (d.srcSpace = 0 → host = [] → d.elem ≠ 0 → ∃ q, exec (.flumeElementIssue f ⟨⟨host, .good⟩, .clean⟩) s = .next q
          ∧ (q.flume f).hostDue = (s.flume f).hostDue ++ [t.issued]
          ∧ (q.flume f).cur = some { t with issued := t.issued + 1, gates := if due then t.gates + 1 else t.gates }
          ∧ (∀ k, k ≠ f.val → q.flume k = s.flume k) ∧ s.Frame [.regs, .flumes, .pools] q)
        ∧ (∀ bs, (d.srcSpace = 0 → host.length = d.elem) → d.srcSpace < 4 → d.dstSpace < 4 →
          (s.elemRead f d x host .clean .good).2 = .ok bs →
          (s.elemWrite f d x bs .good).2 = none →
          let w := (s.elemWrite f d x bs .good).1
          ∃ q, exec (.flumeElementIssue f ⟨⟨host, .good⟩, .clean⟩) s = .next q
            ∧ (q.flume f).cur = some { t with issued := t.issued + 1, gates := if due then t.gates + 1 else t.gates }
            ∧ (q.flume f).bytes = (s.flume f).bytes + BitVec.ofNat 64 (d.written x)
            ∧ q.tokin f = (if due then s.tokin f - d.gateN else s.tokin f)
            ∧ q.mem = w.mem ∧ q.crib = w.crib ∧ q.loft = w.loft ∧ (d.srcSpace ≠ 1 → q.host.out = w.host.out)
            ∧ (d.dstSpace ≠ 1 → q.mem = s.mem) ∧ (d.dstSpace ≠ 2 → q.crib = s.crib) ∧ (d.dstSpace ≠ 3 → q.loft = s.loft)
            ∧ (d.dstSpace = 1 → ∀ a, a < x.dst.toNat ∨ x.dst.toNat + bs.length ≤ a → q.mem.rd a = s.mem.rd a)
            ∧ (∀ k, k ≠ f.val → q.flume k = s.flume k)
            ∧ s.Frame ([.mem, .memTag, .crib, .cribBad, .loft, .flumes, .memStacks, .stackCores, .pools] ++ reportParts) q)
        ∧ (let parts := bulkParts 300 (if d.srcSpace = 4 then x.src.toNat else x.dst.toNat) d.elem
           (d.srcSpace = 4 ∨ (d.dstSpace = 4 ∧ (d.srcSpace = 0 → host.length = d.elem)
             ∧ ∃ bs, (s.elemRead f d x host .clean .good).2 = .ok bs)) → d.weirPort < 24 →
           s.bridgeArmed (Master.flume f) (decide (12 ≤ d.weirPort)) (decide (d.dstSpace = 4)) = false →
           parts.length ≤ s.tagsFor (Master.flume f) (.weir (Fin.ofNat 24 d.weirPort)) →
           ∃ q, exec (.flumeElementIssue f ⟨⟨host, .good⟩, .clean⟩) s = .next q
            ∧ (q.flume f).cur = some { t with issued := t.issued + 1, gates := if due then t.gates + 1 else t.gates }
            ∧ (q.flume f).bulkTodo = [] ∧ (q.flume f).bulk.length = (s.flume f).bulk.length + parts.length
            ∧ (q.port d.weirPort).held.length = (s.port d.weirPort).held.length + parts.length
            ∧ q.mem = s.mem ∧ q.crib = s.crib ∧ q.loft = s.loft ∧ (∀ k, k ≠ d.weirPort → q.port k = s.port k)
            ∧ (∀ k, k ≠ f.val → q.flume k = s.flume k)))

/-- Elements complete in any order; DONE counts each one as it completes, and the completed prefix grows with the element that it waits for
(R278, R296). A complete group's signal reaches the counter, the TOKIN or the MSI-X vector it names, or is suppressed while the task owes
suppressions (R284, R293). -/
def Obligations.FlumeCompletesAndSignals : Prop :=
  ∀ (f : FlumeId) (e : Nat) (s : State) (t : Task), s.Canonical → (s.flume f).cur = some t →
    ((s.flume f).mayComplete t e = true →
      (e = t.prefixDone → t.ackedAhead = [] → ∃ q, exec (.flumeElementComplete f e) s = .next q
        ∧ (q.flume f).cur = some { t with prefixDone := e + 1 }
        ∧ q.flumeView f (Reg.flume.DONE_LO f) = some (BitVec.ofNat 32 (t.prefixDone + t.ackedAhead.length + 1))
        ∧ (q.flume f).tags = (s.flume f).tags.filter (fun h => decide (h.elem ≠ e)) ∧ s.Frame [.flumes, .host] q)
      ∧ (t.prefixDone < e → t.ackedAhead.contains t.prefixDone = false → ∃ q, exec (.flumeElementComplete f e) s = .next q
        ∧ (q.flume f).cur = some { t with ackedAhead := t.ackedAhead ++ [e] }
        ∧ q.flumeView f (Reg.flume.DONE_LO f) = some (BitVec.ofNat 32 (t.prefixDone + t.ackedAhead.length + 1))
        ∧ (q.flume f).tags = (s.flume f).tags.filter (fun h => decide (h.elem ≠ e)) ∧ s.Frame [.flumes, .host] q))
    ∧ (s.flumeRuns f = true → (s.flume f).state ≠ .aborted → (s.flume f).abortHeld = none → t.signalled < t.groupsDone →
      (t.suppress ≠ 0 → exec (.flumeGroupSignal f) s = .next (s.setFlume f
        { s.flume f with cur := some { t with signalled := t.signalled + 1, suppress := t.suppress - 1 } }))
      ∧ (t.suppress = 0 →
        (t.d.sigKind = 0 → s.token t.d.sigTarget t.d.sigToken + t.d.sigN ≤ 65535 →
          ∃ q, exec (.flumeGroupSignal f) s = .next q
            ∧ q.token t.d.sigTarget t.d.sigToken = s.token t.d.sigTarget t.d.sigToken + t.d.sigN
            ∧ (q.flume f).cur = some { t with signalled := t.signalled + 1, recv := t.recv + 1 }
            ∧ (∀ a, a ≠ Reg.barn.TOKEN t.d.sigTarget t.d.sigToken → q.reg a = s.reg a) ∧ s.Frame [.regs, .flumes] q)
        ∧ (t.d.sigKind = 1 → t.d.sigTarget < 32 → s.tokin t.d.sigTarget + t.d.sigN ≤ 65535 →
          ∃ q, exec (.flumeGroupSignal f) s = .next q ∧ q.tokin t.d.sigTarget = s.tokin t.d.sigTarget + t.d.sigN
            ∧ (q.flume f).cur = some { t with signalled := t.signalled + 1, recv := t.recv + 1
                                              tokBase := if t.d.sigTarget = f.val then satAdd 16 t.tokBase t.d.sigN else t.tokBase }
            ∧ (∀ a, a ≠ Reg.flume.TOKIN t.d.sigTarget → q.reg a = s.reg a) ∧ s.Frame [.regs, .flumes] q)
        ∧ (t.d.sigKind = 2 → ∃ q, exec (.flumeGroupSignal f) s = .next q ∧ q.host = (s.msix t.d.sigTarget).host
            ∧ (q.flume f).cur = some { t with signalled := t.signalled + 1, recv := t.recv + 1 } ∧ s.Frame [.flumes, .host] q)))

/-- At its descriptor boundary a Flume with nothing next is IDLE, and another begins its next descriptor with PRELOAD added (R280, R281).
RESTART acts only in ABORTED: it begins the current descriptor again at element 0, with its next one where it has one, or the snapshot's
with SNAP_TOKIN, or discards both slots (R280, R293, R294). SNAP_TOKIN already holds a current descriptor's PRELOAD, which the task's token
base leaves out; with no current descriptor the snapshot's next one begins; with neither the Flume stands IDLE (assumption 50: the
model's reading). -/
def Obligations.FlumeBoundaryAndRestart : Prop :=
  ∀ (w : Writer) (f : FlumeId) (s : State), s.Canonical →
    let x := s.flume f
    let free (snap : Bool) : Prop := s.fetchWaits f ⟨x.curAddr, .restart w snap⟩ = false
      ∧ s.tagsReady (Master.flume f) (s.fetchNeeds f ⟨x.curAddr, .restart w snap⟩) = true
    (∀ t, s.flumeRuns f = true → x.heldNext = false → s.endedTask f = some t → (t.d.sigTail = false ∨ t.tailSent = true) →
      (s.tally.state ≠ .committing ∨ s.touchesFlume f = false) → x.offline = false → s.tally.live = false →
      (x.nxt = none → exec (.descriptorBoundary f) s = .next (s.setFlume f { x with state := .idle, cur := none }))
      ∧ (∀ a d, x.nxt = some (a, d) → s.tokin f + d.preload ≤ 65535 →
        ∃ q, exec (.descriptorBoundary f) s = .next q ∧ q.tokin f = s.tokin f + d.preload
          ∧ (q.flume f).cur = some (newTask a d (s.tokin f) 0) ∧ (q.flume f).state = .active ∧ (q.flume f).nxt = none
          ∧ s.Frame [.regs, .flumes] q))
    ∧ (s.takesClean w (Reg.flume.RESTART f) = true →
      (x.state = .aborted → x.offline = false → exec (.restartClear w f) s = .next (s.setFlume f
        { x with state := .idle, cur := none, nxt := none, fetch := none, nextAt := none, heldNext := false, stepAborted := false
                 resumeDue := false }))
      ∧ (x.state ≠ .aborted → exec (.restartClear w f) s = .next s ∧ exec (.restartFromTask w f) s = .next s
          ∧ exec (.restartFromSnapshot w f) s = .next s)
      ∧ (∀ t0 d, x.state = .aborted → s.flumeRuns f = true → x.cur = some t0 → free false →
          s.injectCredit = false → (s.readDesc f t0.addr).2 = .ok d → s.tokin f + d.preload ≤ 65535 →
          (∀ n, (s.restartSlots f false).2 = some n → ∃ d2, (s.readDesc f n).2 = .ok d2) →
          ∃ q, exec (.restartFromTask w f) s = .next q ∧ q.tokin f = s.tokin f + d.preload
            ∧ (q.flume f).cur = some (newTask t0.addr d (s.tokin f) (s.fld (Reg.flume.FAULT_INFO f) 31 16))
            ∧ (q.flume f).state = (if (s.restartSlots f false).2.isSome then .activeNext else .active)
            ∧ (q.flume f).nxt.map (fun n => n.1) = (x.nxt.map (fun n => n.1)).or x.nextAt
            ∧ (∀ k, k ≠ f.val → q.flume k = s.flume k)
            ∧ s.Frame ([.flumes, .memStacks, .stackCores, .pools] ++ reportParts) q)
      ∧ (∀ d, let a := (s.reg (Reg.flume.SNAP_CUR_LO f)).toNat + 2 ^ 32 * s.fld (Reg.flume.SNAP_CUR_HI f) 9 0
          x.state = .aborted → s.flumeRuns f = true → s.regBit (Reg.flume.SNAP_CUR_HI f) 31 = true →
          s.regBit (Reg.flume.SNAP_NEXT_HI f) 31 = false → free true → s.injectCredit = false →
          (s.readDesc f a).2 = .ok d → d.preload ≤ 65535 →
          ∃ q, exec (.restartFromSnapshot w f) s = .next q ∧ q.tokin f = s.fld (Reg.flume.SNAP_TOKIN f) 15 0
            ∧ (q.flume f).cur = some (newTask a d (s.fld (Reg.flume.SNAP_TOKIN f) 15 0 - d.preload) 0)
            ∧ (q.flume f).state = .active ∧ (q.flume f).nxt = none
            ∧ (∀ k, k ≠ f.val → q.flume k = s.flume k)
            ∧ s.Frame ([.flumes, .memStacks, .stackCores, .pools] ++ reportParts) q)
      ∧ (∀ d, let a := (s.reg (Reg.flume.SNAP_NEXT_LO f)).toNat + 2 ^ 32 * s.fld (Reg.flume.SNAP_NEXT_HI f) 9 0
          x.state = .aborted → s.flumeRuns f = true → s.regBit (Reg.flume.SNAP_CUR_HI f) 31 = false →
          s.regBit (Reg.flume.SNAP_NEXT_HI f) 31 = true → free true → s.injectCredit = false →
          (s.readDesc f a).2 = .ok d → s.fld (Reg.flume.SNAP_TOKIN f) 15 0 + d.preload ≤ 65535 →
          ∃ q, exec (.restartFromSnapshot w f) s = .next q ∧ q.tokin f = s.fld (Reg.flume.SNAP_TOKIN f) 15 0 + d.preload
            ∧ (q.flume f).cur = some (newTask a d (s.fld (Reg.flume.SNAP_TOKIN f) 15 0) 0)
            ∧ (q.flume f).state = .active ∧ (q.flume f).nxt = none
            ∧ (∀ k, k ≠ f.val → q.flume k = s.flume k)
            ∧ s.Frame ([.flumes, .memStacks, .stackCores, .pools] ++ reportParts) q)
      ∧ (x.state = .aborted → s.flumeRuns f = true → s.regBit (Reg.flume.SNAP_CUR_HI f) 31 = false →
          s.regBit (Reg.flume.SNAP_NEXT_HI f) 31 = false → s.commitHoldsFlume f = false → x.offline = false →
          ∃ q, exec (.restartFromSnapshot w f) s = .next q ∧ q.tokin f = s.fld (Reg.flume.SNAP_TOKIN f) 15 0
            ∧ (q.flume f).state = .idle ∧ (q.flume f).cur = none ∧ (q.flume f).nxt = none ∧ s.Frame [.regs, .flumes] q))

/-- A granted translation enters the cache and the element may issue; one that gives no access aborts the task, with a page request where
PRI is enabled (R290, R291); so do an error completion and a completion timeout of a host read, the oldest that is out or one that issues
and fails (R290, R438; assumption 110), once the other reads that are out have ended (R292). The data of the oldest read that is out lands
as it comes. An invalidation removes its translations, and completes once no request uses its range (R290). A page request refused is
reported with HOST_ABORT, and its task waits for the host (R293); one granted restarts the task that it aborted, or is owed where FP-B does
not run (R202, R293). A freed tag goes to the next waiting master after the last served (R286). -/
def Obligations.FlumeHostAccess : Prop :=
  ∀ (f : FlumeId) (s : State), s.Canonical →
    let x := s.flume f
    (∀ va, x.waitVa = some va →
      exec (.translationComplete f true) s = .next { s.setFlume f { x with waitVa := none } with
        host := { s.host with atc := atcAdd s.host.atc va } }
      ∧ (∀ t, x.cur = some t → x.drained = true → x.abortHeld = none → x.offline = false →
          ∃ q, exec (.translationComplete f false) s = .next q ∧ (q.flume f).state = .aborted ∧ (q.flume f).waitVa = none
            ∧ (q.flume f).abortCause = some (if s.host.priEn then Cause.PAGE_FAULT else Cause.HOST_ABORT)
            ∧ (q.flume f).pageReq = (if s.host.priEn then some s.host.prgi else x.pageReq)
            ∧ q.mem = s.mem ∧ q.crib = s.crib ∧ q.loft = s.loft))
    ∧ (∀ t, s.issueTask f = some t → t.d.srcSpace = 0 → t.d.elem ≠ 0 → s.gateOpen f t = true → s.headgateOpen f t.d.elem = true →
        let y := t.d.element t.issued
        inSpace 0 y.src t.d.elem = true → inSpace t.d.dstSpace y.dst t.d.elem = true → x.drained = true → x.offline = false →
        s.needsPage y.src.toNat t.d.elem = none → s.elemWaits t.d y = false → s.tagsReady (Master.flume f) (t.d.needs y) = true →
        ∃ q, exec (.hostErrorCompletion f) s = .next q ∧ exec (.completionTimeout f) s = .next q ∧ (q.flume f).state = .aborted
          ∧ (q.flume f).abortCause = some Cause.HOST_ABORT ∧ q.mem = s.mem ∧ q.crib = s.crib ∧ q.loft = s.loft)
    ∧ (∀ t e rest, x.cur = some t → x.hostDue = e :: rest → x.abortHeld = none →
        (rest = [] → x.bulk = [] → x.bulkTodo = [] → x.offline = false →
          ∃ q, exec (.hostErrorCompletion f) s = .next q ∧ exec (.completionTimeout f) s = .next q ∧ (q.flume f).state = .aborted
            ∧ (q.flume f).abortCause = some Cause.HOST_ABORT ∧ q.mem = s.mem ∧ q.crib = s.crib ∧ q.loft = s.loft)
        ∧ (rest ≠ [] → ∃ q a, exec (.hostErrorCompletion f) s = .next q ∧ exec (.completionTimeout f) s = .next q
            ∧ (q.flume f).state = x.state ∧ (q.flume f).hostDue = rest ∧ (q.flume f).abortHeld = some a ∧ a.failed = [e]
            ∧ a.cause = Cause.HOST_ABORT ∧ s.Frame [.flumes, .pools] q))
    ∧ (∀ t e rest (host : List Byte), x.cur = some t → x.hostDue = e :: rest → x.bulkTodo = [] → x.abortHeld = none → host ≠ [] →
        host.length = t.d.elem → t.d.srcSpace = 0 → t.d.dstSpace < 4 → s.fatal = false → s.injectCredit = false →
        let y := t.d.element e
        (s.elemRead f t.d y host .clean .good).2 = .ok host → (s.elemWrite f t.d y host .good).2 = none →
        let w := (s.elemWrite f t.d y host .good).1
        ∃ q, exec (.flumeElementIssue f ⟨⟨host, .good⟩, .clean⟩) s = .next q ∧ (q.flume f).hostDue = rest
          ∧ (q.flume f).bytes = x.bytes + BitVec.ofNat 64 (t.d.written y) ∧ (q.flume f).cur = x.cur
          ∧ q.mem = w.mem ∧ q.crib = w.crib ∧ q.loft = w.loft ∧ (∀ k, k ≠ f.val → q.flume k = s.flume k)
          ∧ s.Frame ([.mem, .memTag, .crib, .cribBad, .loft, .flumes, .memStacks, .stackCores] ++ reportParts) q)
    ∧ (∀ va n, s.host.inval = [] →
        let kept := s.host.atc.filter (fun p => !(decide (p.toNat < va.toNat + n) && decide (va.toNat < p.toNat + 4096)))
        ((List.range 32).any (fun k => s.usesRange k va.toNat n) = false →
          exec (.invalidationRequest va n) s = .next { s with host := { s.host with
            atc := kept, out := s.host.out ++ [.invalidationDone va] } })
        ∧ ((List.range 32).any (fun k => s.usesRange k va.toNat n) = true →
          exec (.invalidationRequest va n) s = .next { s with host := { s.host with atc := kept, inval := [(va, n)] } }))
    ∧ (∀ g, x.pageReq = some g →
        (∀ a, a ≠ .success → ∃ q, exec (.pageRequestResponse f a) s = .next q
          ∧ q.flume f = { x with pageReq := none, abortCause := x.abortCause.map (fun _ => Cause.HOST_ABORT) }
          ∧ ((s.reg ((Page.flume f).base + Reg.header.ERR_STATUS)).field 7 0 = 0 →
            (q.reg ((Page.flume f).base + Reg.header.ERR_STATUS)).field 7 0 = Cause.HOST_ABORT)
          ∧ (∀ k, k ≠ f.val → q.flume k = s.flume k) ∧ s.Frame ([.flumes] ++ reportParts) q)
        ∧ (x.state = .aborted → x.abortCause = some Cause.PAGE_FAULT → x.stepAborted = false →
          (s.fpbRuns = false → exec (.pageRequestResponse f .success) s = .next (s.setFlume f
            { x with pageReq := none, resumeDue := true }))
          ∧ (∀ t0 d, s.fpbRuns = true → s.flumeRuns f = true → x.cur = some t0 → x.nxt = none → x.nextAt = none →
            s.fetchWaits f ⟨x.curAddr, .restart (.fp 0) false⟩ = false →
            s.tagsReady (Master.flume f) (s.fetchNeeds f ⟨x.curAddr, .restart (.fp 0) false⟩) = true → s.injectCredit = false →
            (s.readDesc f t0.addr).2 = .ok d → s.tokin f + d.preload ≤ 65535 →
            ∃ q, exec (.pageRequestResponse f .success) s = .next q ∧ (q.flume f).pageReq = none ∧ (q.flume f).state = .active
              ∧ (q.flume f).cur = some (newTask t0.addr d (s.tokin f) (s.fld (Reg.flume.FAULT_INFO f) 31 16))
              ∧ (∀ k, k ≠ f.val → q.flume k = s.flume k)
              ∧ s.Frame ([.barns, .flumes, .memStacks, .stackCores, .pools] ++ reportParts) q)))
    ∧ (∀ pool,
        ((s.poolState pool).pick = none → exec (.tagGrant pool) s = .next s)
        ∧ (∀ m, s.poolUsed pool < poolTags pool → (s.poolState pool).pick = some m →
          ∃ q, exec (.tagGrant pool) s = .next q ∧ (q.poolState pool).last = m
            ∧ (q.poolState pool).granted = (s.poolState pool).granted ++ [m] ∧ m ∉ (q.poolState pool).waiting
            ∧ (∀ k, k < 32 → m = Master.flume k → (q.flume k).waitTag = false) ∧ s.Frame [.flumes, .pools] q))

/-- No Flume command writes the Granary, the fuses, Gauge or the firmware processors, only the issue of an element writes the Crib or the
Loft, and only it and a bulk time-out write memory; a completion writes the Flumes and the host's messages alone. No command of a Weir port
or of a job's collectives, but RWR, writes the Crib, the Loft, the Granary, the fuses, Gauge's state or the test port; symbols and the link
write no memory. -/
def Obligations.FlumeAndWeirFrames : Prop :=
  (∀ (w : Writer) (f : FlumeId) (g : Bool) (a : PageAnswer) (h : List Byte) (u : Upset) (par : SluiceParity) (c : Instr) (s t : State),
      c ∈ [.armGo w f, .descriptorFetch ⟨f, par⟩, .flumeElementIssue f ⟨⟨h, par⟩, u⟩, .flumeGroupSignal f, .descriptorBoundary f,
        .translationComplete f g, .pageRequestResponse f a, .hostErrorCompletion f, .completionTimeout f, .restartFromTask w f,
        .restartFromSnapshot w f, .restartClear w f, .bulkTmo f] → exec c s = .next t →
      (t.gran = s.gran ∧ t.granBad = s.granBad ∧ t.fuses = s.fuses ∧ t.gauge = s.gauge ∧ t.fps = s.fps ∧ t.time = s.time
        ∧ t.tap = s.tap ∧ t.springBad = s.springBad ∧ t.slicePend = s.slicePend ∧ t.pending = s.pending)
      ∧ (c ≠ .flumeElementIssue f ⟨⟨h, par⟩, u⟩ → t.crib = s.crib ∧ t.cribBad = s.cribBad ∧ t.loft = s.loft)
      ∧ (c ≠ .flumeElementIssue f ⟨⟨h, par⟩, u⟩ → c ≠ .bulkTmo f → t.mem = s.mem ∧ t.memTag = s.memTag))
  ∧ (∀ (f : FlumeId) (e : Nat) (s t : State), exec (.flumeElementComplete f e) s = .next t → s.Frame [.flumes, .host] t)
  ∧ (∀ (p : PortId) (j : JobId) (f : Flit) (par : SluiceParity) (w : HopWait) (n : Nat) (e : Bool) (m : BitVec 4) (c : Instr) (s t : State),
      exec c s = .next t →
      (c ∈ [.linkTraining p n e m, .replayTimeout p, .tmoLink p, .ack p, .nak p, .credit p, .tack p, .slow p,
          .abort p, .verdict p, .lane p, .brow p, .tackp p, .rrd p, .cpl p] →
        t.mem = s.mem ∧ t.memTag = s.memTag ∧ t.fps = s.fps ∧ (s.tally.state ≠ .committing → t.freeIx = s.freeIx))
      ∧ (c ∈ [.linkTraining p n e m, .flitReceive p f par, .replayTimeout p, .tmoLink p, .weirPacketSend ⟨p, par⟩, .ack p, .nak p, .credit p,
          .tack p, .slow p, .abort p, .resume p, .verdict p, .lane p, .telemetry p, .brow p, .frow p, .grow p, .exprec p, .agree p,
          .twrite p, .tackp p, .wack p, .rdata p, .rrd p, .mwr p, .mrd p, .cpl p, .reduceAdd p, .bucketGroup p, .hopTimeout p w,
          .verdictInputReady j, .allgatherStart j] →
        t.crib = s.crib ∧ t.cribBad = s.cribBad ∧ t.loft = s.loft ∧ t.gran = s.gran ∧ t.granBad = s.granBad ∧ t.fuses = s.fuses
          ∧ t.gauge = s.gauge ∧ t.tap = s.tap ∧ t.time = s.time ∧ t.pending = s.pending ∧ t.springBad = s.springBad))

/-! ## The Weir: the link -/

/-- FP-L trains a port that is down, in RUN and in a start: the link comes up on the offered lanes that are not retired, sequence numbers
and buffers at their first state (R299). With no equalisation, no common major or no lane left it stays as it was (R299). A port sends its
next flit: packets in the area, control symbols in their slots, tagged with the next sequence number, on the next active lane in turn, and
kept for replay (R300, R301, R302, R304); ERR_INJECT [0] inverts the CRC on the line alone (R341). That the sequence numbers start at 0 is
assumption 41, and the turn of the lanes assumption 23: the model's readings. -/
def Obligations.LinkTrainsAndSends : Prop :=
  (∀ (p : PortId) (offer : Nat) (equalised : Bool) (lanes : BitVec 4) (s : State),
      let use := lanes &&& ~~~ (s.port p).lanesRetired
      (s.port p).link = .down → (s.port p).retired = false → s.fplTrains = true → s.fatal = false →
      (equalised = true → 1 ≤ offer → use ≠ 0 →
        ∃ q, exec (.linkTraining p offer equalised lanes) s = .next q ∧ (q.port p).link = .up ∧ (q.port p).lanes = use
          ∧ (q.port p).txSeq = 0 ∧ (q.port p).rxExpect = 0 ∧ (q.port p).lineCount = 0 ∧ (q.port p).replay = []
          ∧ (q.port p).rxQ = [] ∧ (q.port p).held = [] ∧ (q.port p).lastRx = s.time ∧ (q.port p).laneFrom = none
          ∧ (∀ k, k ≠ p.val → q.port k = s.port k) ∧ s.Frame [.ports] q)
      ∧ (equalised = false ∨ offer = 0 ∨ use = 0 → exec (.linkTraining p offer equalised lanes) s = .next s))
  ∧ (∀ (p : PortId) (s : State),
      let y := s.pickSyms p
      let r := y.2.flitArea p (s.port p).txBuf
      (s.port p).link = .up → (s.port p).retired = false → (s.port p).replay.length < 1024 → (s.port p).offApplied = false →
      s.fatal = false → s.up = true → r.2 ≠ [] → r.1.fatal = false →
      r.1.regBit (Reg.port.page p + Reg.header.ERR_INJECT) 3 = false →
      let x := r.1.port p
      let tag : BitVec 20 := BitVec.ofNat 20 (1 + 4 * x.txSeq.toNat)
      let body := flitBody tag (padArea r.2) y.1
      let armed := r.1.regBit (Reg.port.page p + Reg.header.ERR_INJECT) 0
      ∃ q, exec (.weirPacketSend ⟨p, .good⟩) s = .next q
        ∧ (q.port p).lineOut = x.lineOut ++ [⟨laneOf (x.lanesFor tag) x.lineCount, ⟨tag, if armed then badCrc body else body⟩⟩]
        ∧ (q.port p).lineCount = x.lineCount + 1 ∧ (q.port p).replay = x.replay ++ [(x.txSeq, ⟨tag, body⟩)]
        ∧ (q.port p).txSeq = x.txSeq + 1 ∧ (q.port p).txBuf = r.2.drop 616
        ∧ (∀ k, k ≠ p.val → q.port k = r.1.port k) ∧ r.1.Frame [.regs, .ports, .pools] q)

/-- A flit on an active lane whose code or CRC fails is dropped and answered with NAK (R301, R302). A sequenced flit in order advances the
sequence and is acknowledged (R302); one that carries symbols alone leaves just them, and a packet for this module that it ends is queued
behind them (R300, R308). A flit on a lane that is not active is no flit of the link, and an ill-formed operand is refused (R301). That a
flit that fails does not end a silence is assumption 41: the model's reading. -/
def Obligations.FlitsAreTaken : Prop :=
  ∀ (p : PortId) (f : Flit) (par : SluiceParity) (s : State),
    let x := s.port p
    let crc := decide (leNat ((f.body.drop 636).take 4) = (flitCrc f.tag f.body).toNat)
    (Sys2Proof.Flit.wellFormed f = false → exec (.flitReceive p f par) s = .refused .illFormed)
    ∧ (Sys2Proof.Flit.wellFormed f = true → x.link ≠ .up ∨ bit x.lanes.toNat f.lane.val = false →
        exec (.flitReceive p f par) s = .next s)
    ∧ (Sys2Proof.Flit.wellFormed f = true → x.link = .up → bit x.lanes.toNat f.lane.val = true →
      (f.fec = .uncorrectable ∨ crc = false →
        ∃ q, exec (.flitReceive p f par) s = .next q ∧ (q.port p).nakSent = true ∧ (q.port p).rxExpect = x.rxExpect
          ∧ (q.port p).rxQ = x.rxQ ∧ (q.port p).lastRx = x.lastRx ∧ q.mem = s.mem ∧ q.crib = s.crib ∧ q.loft = s.loft ∧ q.gran = s.gran)
      ∧ (f.fec ≠ .uncorrectable → crc = true → bits f.tag.toNat 1 0 = 1 → BitVec.ofNat 12 (bits f.tag.toNat 13 2) = x.rxExpect →
        par = .good → s.regBit (Reg.port.page p + Reg.header.ERR_INJECT) 3 = false → s.Canonical →
        ∃ q, exec (.flitReceive p f par) s = .next q ∧ (q.port p).rxExpect = x.rxExpect + 1 ∧ (q.port p).nakSent = false
          ∧ (q.port p).lastRx = s.time ∧ q.mem = s.mem ∧ q.crib = s.crib ∧ q.loft = s.loft ∧ q.gran = s.gran
          ∧ (∀ rest, takePackets packetsPerFlit (x.rxBuf ++ f.body.take 616) = ([], rest) →
              (q.port p).rxBuf = rest ∧ symAck x.rxExpect ∈ (q.port p).txSyms ∧ s.Frame [.regs, .ports] q)
          ∧ (∀ k rest, takePackets packetsPerFlit (x.rxBuf ++ f.body.take 616) = ([k], rest) → s.forThis k = true →
              s.mustDiscard p k = false →
              (∃ l, (q.port p).rxQ = l ++ [.pkt k]) ∧ (q.port p).rxBuf = rest ∧ s.Frame [.regs, .ports] q)))

/-- Every outstanding flit is sent again after 4 µs with no acknowledgment (R302), in the Fatal state none (R397). Silence for TMO_LINK
retires the port (R303); under a LINK slice the retirement waits for its end (R409). A TACK, an upstream row, an all-gather or agreement
packet or a TACKP that does not come within TMO_HOP aborts the step with cause ROSTER (R330), and waits for lap 1 in a job that has
committed (R333). A bulk request with no reply aborts its task with HOST_ABORT, by the hop wait or by BULK_TMO (R336). That a missing TACKP
or agreement packet aborts the step is assumption 45, and that the hop wait of a bulk request acts as BULK_TMO does assumption 46: the
model's readings. -/
def Obligations.WeirTimeouts : Prop :=
  (∀ (p : PortId) (s : State),
    let x := s.port p
    (x.link = .up → x.replay ≠ [] → reachedUs (s.time - x.replaySince) 4 = true → s.fatal = true →
      exec (.replayTimeout p) s = .next s)
    ∧ (x.link = .up → x.replay ≠ [] → reachedUs (s.time - x.replaySince) 4 = true → s.fatal = false →
      ∃ q, exec (.replayTimeout p) s = .next q ∧ (q.port p).replay = x.replay ∧ (q.port p).replaySince = s.time
        ∧ (s.regBit (Reg.port.page p + Reg.header.ERR_INJECT) 0 = false →
            (q.port p).lineOut.map (fun y => y.flit) = x.lineOut.map (fun y => y.flit) ++ x.replay.map (fun y => y.2))
        ∧ (∀ k, k ≠ p.val → q.port k = s.port k) ∧ s.Frame [.regs, .ports] q)
    ∧ (x.link = .up → x.retired = false → reachedUs (s.time - x.lastRx) (s.fld (Reg.port.TMO_LINK p) 23 0) = true →
      (s.sliceHoldsPort p = false → ∃ q, exec (.tmoLink p) s = .next q ∧ (q.port p).retired = true ∧ (q.port p).link = .retired
        ∧ q.mem = s.mem ∧ q.crib = s.crib ∧ q.loft = s.loft ∧ q.gran = s.gran)
      ∧ (s.sliceHoldsPort p = true → exec (.tmoLink p) s = .next (s.holdAct (.port p)))))
  ∧ (∀ (p : PortId) (w : HopWait) (j : JobId) (s : State), s.Canonical → s.hopExpired p w = some j.val →
      ((s.job j).passed = false → s.jobLive j = true → (s.job j).aborted = false →
        ∃ q, exec (.hopTimeout p w) s = .next q ∧ (q.job j).aborted = true ∧ (q.job j).cause = Cause.ROSTER ∧ q.mem = s.mem)
      ∧ ((s.job j).passed = true → (s.job j).phase < 2 →
        ∃ q, exec (.hopTimeout p w) s = .next q ∧ (q.job j).lateCause = some ((s.job j).lateCause.getD Cause.ROSTER)
          ∧ s.Frame [.ports, .jobs] q))
  ∧ (∀ (f : FlumeId) (w : BulkWait) (s : State), s.bulkExpired f = some w →
      let left := (s.flume f).bulk.filter (fun v => !v.same w)
      (left = [] → (s.flume f).bulkTodo = [] → (s.flume f).hostDue = [] → (s.flume f).offline = false →
        ∃ q, exec (.bulkTmo f) s = .next q ∧ (q.flume f).state = .aborted ∧ (q.flume f).bulk = [] ∧ q.mem = s.mem ∧ q.crib = s.crib)
      ∧ (left ≠ [] → (∀ v ∈ left, v.data = none) →
        ∃ q, exec (.bulkTmo f) s = .next q ∧ (q.flume f).abortHeld.isSome = true ∧ (q.flume f).bulk = left
          ∧ s.Frame [.flumes, .ports, .pools] q)
      ∧ (∀ (p : PortId) (tag : BitVec 9) (v : BulkWait), s.bulkOf p tag.toNat = some (f.val, v) →
          exec (.hopTimeout p (.wack tag)) s = exec (.bulkTmo f) s))

/-! ## The Weir: symbols -/

/-- The link layer's symbols: ACK empties the replay buffer through its SEQ, NAK sends again from its SEQ, CREDIT sets the cumulative count
of its class, LANE takes lanes out, and flits before its SEQ that wait for replay go on the lanes as they were (R302 to R305). TACK frees
its packet's tags and copy, or sends the row again from the copy (R313); SLOW of this step marks its job and another's says nothing (R329);
TELEMETRY writes the symbol at its origin's slot of the bank, and nothing else in memory (R384), once that memory answers (R268). -/
def Obligations.PortSymbols : Prop :=
  (∀ (p : PortId) (s : State) (v : BitVec 64) (rest : List RxItem),
      let x := s.port p
      let at' := x.replay.findIdx? (fun y => decide (y.1 = BitVec.ofNat 12 (bits v.toNat 19 8)))
      (takeSym Sym.ACK x.rxQ = some (v, rest) →
        (∀ i, at' = some i → exec (.ack p) s = .next (s.setPort p
          { x.keepReplay (x.replay.drop (i + 1)) with rxQ := rest, replaySince := s.time }))
        ∧ (at' = none → exec (.ack p) s = .next (s.setPort p { x with rxQ := rest })))
      ∧ (takeSym Sym.NAK x.rxQ = some (v, rest) →
        (∀ i, at' = some i → s.fatal = false → ∃ q, exec (.nak p) s = .next q ∧ (q.port p).rxQ = rest
          ∧ (q.port p).replay = x.replay.drop i
          ∧ (q.port p).replaySince = s.time
          ∧ (s.regBit (Reg.port.page p + Reg.header.ERR_INJECT) 0 = false →
              (q.port p).lineOut.map (fun y => y.flit) = x.lineOut.map (fun y => y.flit) ++ (x.replay.drop i).map (fun y => y.2))
          ∧ (∀ k, k ≠ p.val → q.port k = s.port k) ∧ s.Frame [.regs, .ports] q)
        ∧ (at' = none ∨ s.fatal = true → exec (.nak p) s = .next (s.setPort p { x with rxQ := rest })))
      ∧ (takeSym Sym.CREDIT x.rxQ = some (v, rest) → bits v.toNat 10 8 ≤ 3 → exec (.credit p) s = .next (s.setPort p
        { x with rxQ := rest, credit := x.credit.set (creditIx (bits v.toNat 10 8) (symJob v)) (BitVec.ofNat 16 (bits v.toNat 26 11)) }))
      ∧ (takeSym Sym.LANE x.rxQ = some (v, rest) → ∃ q, exec (.lane p) s = .next q
          ∧ (q.port p).lanes = x.lanes &&& BitVec.ofNat 4 (bits v.toNat 11 8)
          ∧ q.mem = s.mem ∧ q.crib = s.crib ∧ q.gran = s.gran
          ∧ (let gone := x.lanes &&& ~~~ (BitVec.ofNat 4 (bits v.toNat 11 8))
             gone ≠ 0 → popcount8 (x.lanesRetired ||| gone).toNat < 2 → (q.port p).laneFrom
              = (some (BitVec.ofNat 12 (bits v.toNat 23 12), x.lanes)).filter (fun y => x.replay.any (fun z => seqBefore y.1 z.1)))))
  ∧ (∀ (p : PortId) (s : State) (v : BitVec 64) (rest : List RxItem),
      let x := s.port p
      (∀ h : HeldTag, takeSym Sym.TACK x.rxQ = some (v, rest) → x.heldOf 0 (bits v.toNat 16 8) = some h →
        ∃ q, exec (.tack p) s = .next q
          ∧ (q.port p).held = x.held.filter (fun y => !(decide (y.tag = bits v.toNat 16 8) && decide (y.pkt.fields.cls = 0)))
          ∧ (bit v.toNat 17 = true → (q.port p).txPk = modAt x.txPk 0 (fun l => h.pkt :: l) ∧ q.coll = s.coll)
          ∧ (bit v.toNat 17 = false → (h.pkt.fields.kind = 0 ∨ h.pkt.fields.kind = 1 ∨ h.pkt.fields.kind = 4) →
              (q.prog h.pkt.fields.coll).tacked = (s.prog h.pkt.fields.coll).tacked + 1)
          ∧ (bit v.toNat 17 = false → (h.pkt.fields.kind = 2 ∨ h.pkt.fields.kind = 3) →
              (q.prog h.pkt.fields.coll).agTacked = (s.prog h.pkt.fields.coll).agTacked + 1)
          ∧ (∀ k, k ≠ p.val → q.port k = s.port k) ∧ s.Frame [.ports, .coll] q)
      ∧ (takeSym Sym.SLOW x.rxQ = some (v, rest) →
          (bits v.toNat 17 8 = s.step10 → ∃ q, exec (.slow p) s = .next q
            ∧ q.port p = { x with rxQ := rest, slowRx := true } ∧ (q.job (symJob v)).slow = true ∧ s.Frame [.ports, .jobs] q)
          ∧ (bits v.toNat 17 8 ≠ s.step10 → exec (.slow p) s = .next (s.setPort p { x with rxQ := rest })))
      ∧ (takeSym Sym.TELEMETRY x.rxQ = some (v, rest) → s.Canonical → s.up = true → bits v.toNat 21 8 ≠ s.moduleId → x.telLand = [] →
          let a := s.pair Reg.gauge.TEL_BASE_LO Reg.gauge.TEL_BASE_HI + bits v.toNat 21 8 * 32 + bits v.toNat 24 22 * 8
          let w := (s.setPort p { x with rxQ := rest }).memWrite (Master.port p) a (leBytes 8 v.toNat)
          (s.memWaits a 8 = false → s.tagsReady (Master.port p) (accPools [(a, 8)]) = true →
            ∃ q, exec (.telemetry p) s = .next q ∧ (q.port p).rxQ = rest ∧ (q.port p).telLand = [] ∧ q.mem = w.1.mem
              ∧ (∀ b, b < a ∨ a + 8 ≤ b → q.mem.rd b = s.mem.rd b))
          ∧ (s.memWaits a 8 = true → ∃ q, exec (.telemetry p) s = .next q ∧ (q.port p).rxQ = rest ∧ (q.port p).telLand = [(a, v)]
              ∧ s.Frame [.regs, .ports] q)))

/-- A received ABORT of this step with LATE = 0 aborts its job, even after the job passed its bits (R331, R333). Lap 1 of the verdict sets
VERDICT of the job and starts its optimise phase (R327, R348); lap 0 goes on with a ready member's bits, waits at one that is not ready, and
gives position 0 the result (R327). Lap 1 of RESUME begins the aborted step again in COMPUTE (R332), its members as slow as they were
(R329). An ABORT of the next step stays until its step has come: the model's reading (assumption 51). -/
def Obligations.StepSymbols : Prop :=
  ∀ (p : PortId) (s : State) (v : BitVec 64) (rest : List RxItem),
    let x := s.port p
    let j := symJob v
    let verdictOf (nf spike : Bool) : Nat := (if nf || spike then 2 else 1) + 4 * b2n nf + 8 * b2n spike
    (takeSym Sym.ABORT x.rxQ = some (v, rest) →
      (bits v.toNat 25 16 = s.step10 → s.jobLive j = true → bit v.toNat 40 = false → (s.job j).aborted = false →
        ∃ q, exec (.abort p) s = .next q ∧ (q.job j).aborted = true ∧ (q.job j).ready = false
          ∧ (q.job j).cause = bits v.toNat 15 8 ∧ (q.job j).origin = bits v.toNat 39 26 ∧ q.mem = s.mem ∧ q.gran = s.gran)
      ∧ (bits v.toNat 25 16 = (s.step10 + 1) % 1024 → exec (.abort p) s = .next s))
    ∧ (∀ i r, s.Canonical → takeSym Sym.VERDICT x.rxQ = some (v, rest) → bits v.toNat 20 11 = s.step10 → s.verdictRec j = some (i, r) →
      (s.job j).aborted = false → s.fld (Reg.global.VERDICT j) 1 0 = 0 →
      (bit v.toNat 8 = true ∨ r.pos = 0 → (s.job j).lateCause = none → ∃ q, exec (.verdict p) s = .next q
        ∧ (q.reg (Reg.global.VERDICT j)).toNat = verdictOf (bit v.toNat 9) (bit v.toNat 10)
        ∧ (q.job j).phase = 2 ∧ (q.job j).map = s.pmSlot j 2 ∧ q.mem = s.mem ∧ q.crib = s.crib)
      ∧ (bit v.toNat 8 = false → r.pos ≠ 0 →
        ((s.job j).ready = false → ∃ q, exec (.verdict p) s = .next q
          ∧ (q.job j).heldVerdict = some v ∧ q.port p = { x with rxQ := rest } ∧ s.Frame [.ports, .jobs] q)
        ∧ ((s.job j).ready = true → ∃ q, exec (.verdict p) s = .next q ∧ (q.job j).passed = true ∧ (q.job j).heldVerdict = none
          ∧ ((s.port r.send).link = .up →
              symVerdict j 0 (bit v.toNat 9 || (s.job j).nf) (bit v.toNat 10 || (s.job j).spike) s.step10 ∈ (q.port r.send).txSyms)
          ∧ s.Frame [.ports, .jobs] q)))
    ∧ (∀ i r, takeSym Sym.RESUME x.rxQ = some (v, rest) → bits v.toNat 34 25 = s.step10 → s.verdictRec j = some (i, r) →
      (s.job j).aborted = true → bit v.toNat 8 = true → (∀ f : FlumeId, (s.flume f).stepAborted = false) →
      ∃ q, exec (.resume p) s = .next q ∧ (q.job j).aborted = false ∧ (q.job j).phase = 0 ∧ (q.job j).map = s.pmSlot j 0
        ∧ (q.job j).slow = (s.job j).slow
        ∧ s.Frame [.ports, .jobs, .barns, .tally] q)

/-! ## The Weir: packets -/

/-- A row whose checksum holds is answered with a clear TACK and stays in the step buffer; one whose checksum fails is answered with a bad
TACK and not kept (R313, R328); under a LINK slice it waits (R409). A float row is answered and kept with its NF bit, and the addition
follows at once where its local row is held (R324). -/
def Obligations.RowsAreBuffered : Prop :=
  ∀ (p : PortId) (s : State) (k : Packet) (rest : List RxItem),
    let x := s.port p
    let h := k.fields
    x.rxQ = .pkt k :: rest → s.forThis k = true → h.cls = 0 → s.mustDiscard p k = false →
    let holds := decide ((rowBlocks k.payload).2 = leBytes 8 (rowChecksum (rowBlocks k.payload).1).toNat)
    (h.kind = 0 →
      (s.sliceHoldsPort p = true → exec (.brow p) s = .next s)
      ∧ (s.sliceHoldsPort p = false → holds = true →
        ∃ q, exec (.brow p) s = .next q ∧ (q.port p).rxQ = rest
          ∧ (q.port p).upRows = x.upRows ++ [⟨h.coll, h.tile, h.row, k.payload, s.time⟩]
          ∧ (x.link = .up → (q.port p).txSyms = x.txSyms ++ [symTack h.job h.tag false])
          ∧ ((q.job h.job).slow = true ↔ h.slow = true ∨ (s.job h.job).slow = true) ∧ s.Frame [.ports, .jobs] q)
      ∧ (s.sliceHoldsPort p = false → holds = false → x.suspect = false →
        ∃ q, exec (.brow p) s = .next q ∧ (q.port p).rxQ = rest ∧ (q.port p).upRows = x.upRows
          ∧ (x.link = .up → symTack h.job h.tag true ∈ (q.port p).txSyms)
          ∧ s.Frame ([.ports, .jobs, .slicePend, .sliceRun] ++ reportParts) q))
    ∧ (h.kind = 1 →
      let r := s.collRec h.coll
      ∃ t, exec (.frow p) s = .next (t.adderStep r.send) ∧ (t.port p).rxQ = rest
        ∧ (t.port p).upRows = x.upRows ++ [⟨h.coll, h.tile, h.row, k.payload, s.time⟩]
        ∧ (x.link = .up → (t.port p).txSyms = x.txSyms ++ [symTack h.job h.tag false])
        ∧ (bit (leNat (k.payload.drop (16 * r.fmt.width))) 0 = true → (t.job r.job).nf = true)
        ∧ s.Frame [.ports, .jobs] t ∧ ((s.port r.send).localRows = [] → t.adderStep r.send = t))

/-- All-gather packets: written where the record says, answered with TACK, and sent on unless the next position owns the tile (R320). A
proposal is answered, and the byte-wise maximum with this member's goes on; the tile's owner writes it as the result (R323). Both wait for
memory that waits (R268), and for a tag of its channel (R285, R286). -/
def Obligations.GatherPacketsLand : Prop :=
  ∀ (p : PortId) (s : State) (k : Packet) (rest : List RxItem),
    let h := k.fields
    let r := s.collRec h.coll
    let m := Master.port p
    let c : Instr := if h.kind = 2 then .grow p else if h.kind = 3 then .exprec p else .agree p
    let l := if h.kind = 4 then s.agreeNeeds k else [(s.gatherPlace k, k.payload.length)]
    let s1 := ((s.useTags m (accPools l)).modPort p (fun y => { y with rxQ := rest })).slowOf p k
    (s.port p).rxQ = .pkt k :: rest → s.forThis k = true → h.cls = 0 → (h.kind = 2 ∨ h.kind = 3 ∨ h.kind = 4) →
    s.mustDiscard p k = false →
    (s.anyWaits l = true → exec c s = .next s)
    ∧ (s.anyWaits l = false → s.tagsReady m (accPools l) = false → exec c s = .next (s.joinPools m (accPools l)))
    ∧ (s.anyWaits l = false → s.tagsReady m (accPools l) = true →
      (h.kind = 2 ∨ h.kind = 3 →
        let g := s.ringRec h.coll
        let w := (s1.modProg h.coll (fun y => { y with since := s1.time })).memWrite m (s.gatherPlace k) k.payload
        w.2 = true → ∃ q, exec c s = .next q ∧ q.mem = w.1.mem ∧ (q.prog h.coll).agWritten = (s.prog h.coll).agWritten + 1
          ∧ ((s.port p).link = .up → symTack h.job h.tag false ∈ (q.port p).txSyms)
          ∧ (g.nextPos ≠ g.owner h.tile → g.send < 24 → ∃ l m,
              (q.port g.send).txPk[0]?.getD [] = l ++ [m] ∧ m.fields.kind = h.kind ∧ m.payload = k.payload)
          ∧ w.1.Frame [.ports, .coll, .freeIx] q)
      ∧ (h.kind = 4 → ∀ d,
        let g := s1.memRead m (r.landBase + h.tile * 512) 512
        g.2 = some d →
        let s3 := (g.1.tackPacket p k false).modProg h.coll (fun c => { c with since := s1.time, agreed := c.agreed + 1 })
        let w := s3.memWrite (Master.port r.send) (r.expBase + h.tile * 512) (maxBytes k.payload d)
        (r.owner h.tile = r.pos → w.2 = true → ∃ q, exec c s = .next q ∧ q.mem = w.1.mem
          ∧ (q.prog h.coll).landed = (s.prog h.coll).landed + 1 ∧ w.1.Frame [.ports, .coll, .freeIx] q)
        ∧ (r.owner h.tile ≠ r.pos → ∃ q, exec c s = .next q ∧ q.mem = s.mem
          ∧ (q.prog h.coll).agreed = (s.prog h.coll).agreed + 1 ∧ s3.Frame [.ports, .freeIx] q
          ∧ (r.send < 24 → ∃ l m, (q.port r.send).txPk[0]?.getD [] = l ++ [m] ∧ m.fields.kind = 4
              ∧ m.payload = maxBytes k.payload d))))

/-- A tensor write lands in its channel's ring, is answered with TACKP on the route to its sender, and counts toward the channel's signals;
one whose channel record or bytes memory refuses is not answered (R245, R335). It waits for memory that waits and for a tag (R268, R285).
TACKP frees the tag it answers (R335). A gateway's WACK completes its request, RDATA is written where the descriptor says and held back
behind an earlier open request on the same bytes, and a reply with another STATUS aborts the task with HOST_ABORT (R278, R307, R336). -/
def Obligations.TensorsAndReplies : Prop :=
  ∀ (p : PortId) (s : State) (k : Packet) (rest : List RxItem),
    let x := s.port p
    let h := k.fields
    let s1 := s.modPort p (fun y => { y with rxQ := rest })
    x.rxQ = .pkt k :: rest → s.forThis k = true → s.mustDiscard p k = false →
    (h.cls = 1 → h.kind = 0 →
      let m := Master.port p
      let l := s.twriteNeeds k
      let u := ((s.useTags m (accPools l)).modPort p (fun y => { y with rxQ := rest })).slowOf p k
      let g := u.memRead m (s.chanAddr h.chan) 16
      (s.anyWaits l = true → exec (.twrite p) s = .next s)
      ∧ (s.anyWaits l = false → s.tagsReady m (accPools l) = false → exec (.twrite p) s = .next (s.joinPools m (accPools l)))
      ∧ (s.anyWaits l = false → s.tagsReady m (accPools l) = true →
        (g.2 = none → exec (.twrite p) s = .next (g.1.freePacket p k))
        ∧ (∀ d, g.2 = some d →
          let c := chanRecOf (leNat d)
          let w := g.1.memWrite m (c.place h.tensorOff) k.payload
          let b := w.1.freePacket p k
          let o := b.routeBy m (b.job h.job).map h.src
          let a := chanOffset s.chanLanded h.chan
          let n := (a + k.payload.length) / c.sigBytes - a / c.sigBytes
          (w.2 = false → exec (.twrite p) s = .next b)
          ∧ (w.2 = true → c.sigBytes = 0 ∨ c.kind = 3 → ∃ q, exec (.twrite p) s = .next q ∧ q.mem = w.1.mem
            ∧ chanOffset q.chanLanded h.chan = a + k.payload.length
            ∧ (∀ y, o.2 = some y → mkPacket 1 1 h.job (o.1.slowFlag h.job) o.1.moduleId h.src (o.1.roster h.job) h.tag (bits h.rest 43 0) []
                ∈ (q.port y).txPk[1]?.getD [])
            ∧ o.1.Frame [.ports, .chanLanded] q)
          ∧ (w.2 = true → c.sigBytes ≠ 0 → c.kind = 0 → s.Canonical → o.1.token c.target c.token + n * c.n ≤ 65535 →
            ∃ q, exec (.twrite p) s = .next q ∧ q.mem = w.1.mem ∧ chanOffset q.chanLanded h.chan = a + k.payload.length
            ∧ q.token c.target c.token = o.1.token c.target c.token + n * c.n ∧ o.1.Frame [.ports, .chanLanded, .regs] q))))
    ∧ (h.cls = 1 → h.kind = 1 → ∃ q, exec (.tackp p) s = .next q
        ∧ (q.port p).held = x.held.filter (fun y => !(decide (y.tag = h.tag) && decide (y.pkt.fields.cls = 1)))
        ∧ s.Frame [.ports, .jobs] q)
    ∧ (∀ (f : FlumeId) (w : BulkWait), h.cls = 2 → s.bulkOf p h.tag = some (f.val, w) →
      let left := (s.flume f).bulk.filter (fun v => !v.same w)
      let s3 := (s1.freeTag p 2 h.tag).freePacket p k
      ((s.flume f).abortHeld = none → statusOf k.payload = some 0 → s.echoes f k w = true →
        (h.kind = 1 → w.dst = none → k.payload.length = 4 → ∃ q, exec (.wack p) s = .next q ∧ (q.flume f).bulk = left
          ∧ (q.flume f).bytes = (s.flume f).bytes + BitVec.ofNat 64 w.bytes ∧ s.Frame [.ports, .flumes] q)
        ∧ (∀ a, h.kind = 3 → w.dst = some a → k.payload.length = 4 + w.bytes → s.replyWaits p k = false →
          let y := s3.memWrite (Master.flume f) a (k.payload.drop 4)
          ((s.flume f).heldBehind w = false → y.2 = true → (∀ v ∈ left, v.data = none) →
            ∃ q, exec (.rdata p) s = .next q ∧ q.mem = y.1.mem ∧ (q.flume f).bulk = left
              ∧ (q.flume f).bytes = (s.flume f).bytes + BitVec.ofNat 64 w.bytes ∧ y.1.Frame [.flumes] q)
          ∧ ((s.flume f).heldBehind w = true → ∃ q, exec (.rdata p) s = .next q
              ∧ (q.flume f).bulk = (s.flume f).bulk.map (fun v => if v.same w then { v with data := some (k.payload.drop 4) } else v)
              ∧ s.Frame [.ports, .flumes] q)))
      ∧ ((h.kind = 1 ∨ h.kind = 3) → s.replyWaits p k = false → statusOf k.payload ≠ some 0 → left = [] →
          (s.flume f).bulkTodo = [] → (s.flume f).hostDue = [] → (s.flume f).abortHeld = none → (s.flume f).offline = false →
          ∃ q, exec (if h.kind = 3 then .rdata p else .wack p) s = .next q ∧ (q.flume f).state = .aborted
            ∧ (q.flume f).abortCause = some Cause.HOST_ABORT ∧ q.mem = s.mem ∧ q.crib = s.crib))

/-- A tunnelled request at its target: register writes take effect as the host's own, register reads give the words as the host would read
them, memory reads and writes reach device memory, and each is answered with a CPL: STATUS 0, or 2 where memory refuses (R344, R345); a
frozen window reads all ones (R401). The CPL leaves on the route to the sender; to a request in direct mode it leaves on the port that the
request came by, in direct mode (assumption 63: the model's reading). A memory access waits for its stack and behind earlier ones on its
lines (R241, R268). At the head a CPL with STATUS 0 completes the host's access and frees the tag, and another STATUS fails it and sets
ERR with it in LAST_STATUS (R346, R347). -/
def Obligations.TunnelRequestsAndReplies : Prop :=
  ∀ (p : PortId) (s : State) (k : Packet) (rest : List RxItem),
    let h := k.fields
    let s0 := s.modPort p (fun y => { y with rxQ := rest })
    let s1 := s0.freePacket p k
    let cpl (t : State) (dst st : Nat) (data : List Byte) : Packet := mkPacket 3 4 0 false t.moduleId dst 0 h.tag st data
    let answered (t q : State) (st : Nat) (data : List Byte) : Prop :=
      (h.dst = 16383 → cpl t 16383 st data ∈ (q.port p).txPk[3]?.getD [] ∧ t.Frame [.ports] q)
      ∧ (h.dst ≠ 16383 → (t.sendCpl h.src h.tag st data).1.Frame [.ports] q
        ∧ ∀ y, t.routeWaits t.tunMap h.src = false → t.host.cplHeld = [] → (t.routeBy Master.host t.tunMap h.src).2 = some y →
          cpl t h.src st data ∈ (q.port y).txPk[3]?.getD [])
    let size := if h.kind = 2 then k.payload.length else 4 * (h.rdlen + 1)
    let l := memPools h.tunAddr size
    let u := s1.useTags Master.host l
    (s.port p).rxQ = .pkt k :: rest → s.forThis k = true → s.mustDiscard p k = false → h.cls = 3 →
    (h.kind = 0 →
      let t := (wordOffsets h.tunAddr k.payload.length).foldl (fun s x => s.tunWrite x (wordAt k.payload (x - h.tunAddr))) s0
      ∃ q, exec (.rwr p) s = .next q ∧ answered t q 0 [])
    ∧ (h.kind = 1 →
      let r := s0.hostWords h.tunAddr (h.rdlen + 1)
      (∃ q, exec (.rrd p) s = .next q ∧ answered r.2 q 0 r.1) ∧ s.Frame [.regs, .ports] r.2
        ∧ (s.frozen Master.host = false → h.rdlen = 0 → r.1 = leBytes 4 (s0.readReg h.tunAddr).toNat))
    ∧ (s.frozen Master.host = true →
      (h.kind = 2 → ∃ q, exec (.mwr p) s = .next q ∧ answered s1 q 0 [])
      ∧ (h.kind = 3 → ∃ q, exec (.mrd p) s = .next q ∧ answered s1 q 0 (List.replicate (4 * (h.rdlen + 1)) 0xFF)))
    ∧ (s.frozen Master.host = false → s.host.accMaj = 1 →
      (∀ (c : Instr) (x : HostWait), c = (if h.kind = 2 then .mwr p else .mrd p) →
        x = ⟨h.tunAddr, if h.kind = 2 then .write 0 k.payload [] else .read 0 size, s.time, some ⟨p, h.src, h.dst, h.tag⟩⟩ →
        h.kind = 2 ∨ h.kind = 3 → s1.memWaits h.tunAddr size = true ∨ s.host.waiting.any (fun y => y.meets x) = true →
        exec c s = .next { s1 with host := { s1.host with waiting := s1.host.waiting ++ [x] } })
      ∧ (s1.memWaits h.tunAddr size = false → s.host.waiting = [] → s1.tagsReady Master.host l = true →
        (h.kind = 2 →
          let w := u.memWriteMasked Master.host h.tunAddr k.payload []
          ∃ q, exec (.mwr p) s = .next q ∧ q.mem = w.1.mem ∧ answered w.1 q (if w.2 then 0 else 2) [])
        ∧ (h.kind = 3 →
          let g := u.memRead Master.host h.tunAddr size
          ∃ q, exec (.mrd p) s = .next q ∧ q.mem = s.mem ∧ answered g.1 q (if g.2.isSome then 0 else 2) (g.2.getD []))))
    ∧ (∀ w, h.kind = 4 → s.host.tun.find? (fun y => decide (y.tag = h.tag)) = some w → s.host.tunHeld = [] → s.host.linkUp = true →
        ∃ q, exec (.cpl p) s = .next q ∧ q.host.tun = s.host.tun.erase w
          ∧ (bits h.rest 2 0 = 0 → (w.isRead = true → q.host.out = s.host.out ++ [HostMsg.readData (k.payload.take w.take)])
              ∧ (w.isRead = false → q.host.out = s.host.out) ∧ s.Frame [.ports, .host] q)
          ∧ (bits h.rest 2 0 ≠ 0 → q.host.tunErr = true ∧ q.host.tunLast = bits h.rest 2 0
              ∧ (w.isRead = true → q.host.completerAborts = satInc 16 s.host.completerAborts)
              ∧ s.Frame ([.ports] ++ reportParts) q))

/-! ## The Weir: reductions -/

/-- The adder takes the oldest local row of a job whose upstream row is held too, and passes the checked sum on, counting the blocks that it
promoted (R313, R314, R316, R324); rows that do not agree in exponent and origin abort the step with FORMAT (R314). Under a LINK slice it
takes none (R409). A sum that lands needs a tag of its channel, and the port waits for one where none is free (R285, R286). A group of
bucket tiles takes its tokens once and gives each tile to the reduction in turn (R325); it waits for memory, tags and slices alike. -/
def Obligations.ReduceAddsRowsAndBuckets : Prop :=
  (∀ (p : PortId) (s : State) (l u : RedRow),
      let r := s.collRec l.coll
      let a := rowBlocks u.data
      let b := rowBlocks l.data
      let o := addRows a.1 b.1 (rowChecksum a.1) (rowChecksum b.1)
      let m := Master.port p
      let t := (s.useTags m (s.adderPools l)).takeRows p r.recv l u r.job
      let pairs := (s.adderHeads p).filterMap s.adderPair
      let next := pairs.find? (fun x => s.tagsReady m (s.adderPools x.1))
      s.up = true → s.fatal = false →
      (s.sliceHoldsPort p = true → exec (.reduceAdd p) s = .next s)
      ∧ (pairs = [] → exec (.reduceAdd p) s = .next s)
      ∧ (s.sliceHoldsPort p = false → next = none → ∃ q, exec (.reduceAdd p) s = .next q ∧ s.Frame [.pools] q
        ∧ ∀ x ∈ pairs, ∀ y ∈ s.adderPools x.1, s.tagsFor m y.1 = 0 → m ∈ (q.poolState y.1).waiting)
      ∧ (s.sliceHoldsPort p = false → next = some (l, u) →
        (r.kind ≠ 1 → rowsMatch a.1 b.1 = true → s.regBit (Reg.port.page p + Reg.header.ERR_INJECT) 2 = false →
          o.2 = rowChecksum o.1 →
          let n := (((a.1.zip b.1).zip o.1).filter (fun x => grewBlock x.1.1 x.1.2 x.2)).length
          exec (.reduceAdd p) s = .next ((t.countPromoted p n).rowOn p l.coll r l.tile l.row o.1 o.2))
        ∧ (r.kind ≠ 1 → rowsMatch a.1 b.1 = false → s.Canonical → s.jobLive r.job = true → (s.job r.job).passed = false →
          ∃ q, exec (.reduceAdd p) s = .next q ∧ (q.job r.job).aborted = true ∧ (q.job r.job).cause = Cause.FORMAT ∧ q.mem = s.mem)
        ∧ (r.kind = 1 →
          let n := 16 * r.fmt.width
          let fa := r.floats (u.data.take n)
          let fb := r.floats l.data
          let fo := r.addFloats fa fb
          exec (.reduceAdd p) s = .next (t.floatOn p l.coll r l.tile l.row fo
            (bit (leNat (u.data.drop n)) 0 || r.floatNf fa || r.floatNf fb || r.floatNf fo)))))
  ∧ (∀ (p : PortId) (s : State) (i : Nat) (r : CollRec), s.bucketRec p = some (i, r) →
      let m := Master.port p
      let l := s.bucketNeeds i r
      let t := (s.useTags m (accPools l)).setFld (Reg.barn.TOKEN r.tbarn r.tcount) 15 0 (s.token r.tbarn r.tcount - r.tn)
      (s.token r.tbarn r.tcount < r.tn ∨ s.bucketSliced i r = true ∨ s.sliceHoldsPort p = true ∨ s.anyWaits l = true →
        exec (.bucketGroup p) s = .next s)
      ∧ (r.tn ≤ s.token r.tbarn r.tcount → s.bucketSliced i r = false → s.sliceHoldsPort p = false → s.up = true → s.fatal = false →
        s.anyWaits l = false →
        (s.tagsReady m (accPools l) = false → exec (.bucketGroup p) s = .next (s.joinPools m (accPools l)))
        ∧ (s.tagsReady m (accPools l) = true →
          exec (.bucketGroup p) s = .next ((s.bucketGroup i r).foldl (fun s n => s.bucketTile p i r n) t)
          ∧ (s.bucketGroup i r = [] → exec (.bucketGroup p) s = .next t))))

/-- Two rows whose checksums hold add to a row whose checksum holds, overflowing and non-finite elements included (R316). -/
def Obligations.SumChecksumHolds : Prop :=
  ∀ a b : List RBlock, a.length = b.length → (∀ x ∈ a, x.elems.length = 32) → (∀ x ∈ b, x.elems.length = 32) →
    (addRows a b (rowChecksum a) (rowChecksum b)).2 = rowChecksum (addRows a b (rowChecksum a) (rowChecksum b)).1

/-- The input of a job's verdict is ready: the tokens are taken, the job passes to VERDICT, position 0 passes its bits into lap 0, and
another with the symbol held passes it on; a ring of one has its verdict at once (R326, R327, R348). With the verdict known and every Mill
at its safe point the GATHER phase begins, and its all-gathers with it (R320, R348). -/
def Obligations.VerdictInputAndGather : Prop :=
  ∀ (j : JobId) (s : State),
    (∀ i r, s.Canonical → s.verdictRec j = some (i, r) → s.inputReady j r = true → s.regBit Reg.global.LSD_CTRL 0 = false →
      s.regBit Reg.global.LSD_CTRL 1 = false → ∃ q, exec (.verdictInputReady j) s = .next q
        ∧ q.token r.tbarn r.tcount = s.token r.tbarn r.tcount - r.tn
        ∧ (q.job j).ready = true ∧ (q.job j).nf = s.nfInput ∧ (q.job j).spike = false
        ∧ (r.ring ≠ 1 → (q.job j).phase = 1 ∧ (q.job j).map = s.pmSlot j 1 ∧ s.Frame [.regs, .ports, .jobs] q)
        ∧ (r.ring ≠ 1 → r.pos = 0 → (q.job j).passed = true ∧ ((s.port r.send).link = .up →
            symVerdict j 0 s.nfInput false s.step10 ∈ (q.port r.send).txSyms))
        ∧ (∀ v, r.pos ≠ 0 → (s.job j).heldVerdict = some v → (q.job j).passed = true ∧ (q.job j).heldVerdict = none
            ∧ ((s.port r.send).link = .up →
              symVerdict j 0 (bit v.toNat 9 || s.nfInput) (bit v.toNat 10) s.step10 ∈ (q.port r.send).txSyms))
        ∧ (r.ring = 1 → r.pos = 0 → (s.job j).lateCause = none →
            (q.reg (Reg.global.VERDICT j)).toNat = (if s.nfInput then 2 else 1) + 4 * b2n s.nfInput ∧ (q.job j).phase = 2))
    ∧ (∀ i r, s.verdictRec j = some (i, r) → s.inputReady j r = false → exec (.verdictInputReady j) s = .next s)
    ∧ (s.gatherReady j = true → ∃ q, exec (.allgatherStart j) s = .next q ∧ (q.job j).phase = 3 ∧ (q.job j).map = s.pmSlot j 3
        ∧ ((s.job j).late = true ∨ (∀ x ∈ s.collRecs, x.2.kind = 2 → x.2.job = j.val → 1 < (s.gatherRec x.2).ring) →
          ((s.job j).late = false → ∀ x ∈ s.collRecs, x.2.kind = 2 → x.2.job = j.val → x.2.phase = s.pmSlot j 3 →
            (q.prog x.1).agStarted = true ∧ (q.prog x.1).since = s.time)
          ∧ s.Frame [.ports, .jobs, .coll] q))

/-! ## Device memory and the Mills -/

/-- A line access by a master: a write changes the enabled bytes of its line and nothing else, a clean read changes no byte, and ill-formed
data is no access (R240, R259). It holds a tag of its channel's pool, and the master waits for one where none is free (R285, R286;
assumption 82: the model's choice). A line that the code corrects counts once and keeps its bytes (R260); one beyond correction counts,
shows its address, asks for a spare of its row, and changes no byte (R261). A data entry lost in a sluice makes no access (R399). -/
def Obligations.LinesAreAccessed : Prop :=
  ∀ (m : BitVec 6) (line : BitVec 36) (acc : LineAccess) (s : State),
    let l := line.toNat
    let k := addrStack (64 * l)
    let v := s.useTags m.toNat (memPools (64 * l) 64)
    (Sys2Proof.LineAccess.wellFormed acc = false → ∀ u p, exec (.memoryLineAccess m line acc u p) s = .refused .illFormed)
    ∧ (Sys2Proof.LineAccess.wellFormed acc = true →
      masterPage m.toNat = .unassigned ∨ s.memWaits (64 * l) 64 = true ∨ s.up = false →
      ∀ u p, exec (.memoryLineAccess m line acc u p) s = .next s)
    ∧ (Sys2Proof.LineAccess.wellFormed acc = true → masterPage m.toNat ≠ .unassigned → s.memWaits (64 * l) 64 = false → s.up = true →
      s.tagsReady m.toNat (memPools (64 * l) 64) = false →
      ∀ u p, exec (.memoryLineAccess m line acc u p) s = .next (s.joinPools m.toNat (memPools (64 * l) 64)))
    ∧ (Sys2Proof.LineAccess.wellFormed acc = true → masterPage m.toNat ≠ .unassigned → s.Canonical → s.memWaits (64 * l) 64 = false →
      s.up = true → s.fatal = false → s.tagsReady m.toNat (memPools (64 * l) 64) = true →
      (s.lineBad l = false → s.lineCorrected l = false →
        (acc = .read → v.stackSluice (64 * l) m.toNat false = (v, false) →
          exec (.memoryLineAccess m line acc .clean .good) s = .next v ∧ s.Frame [.pools] v
          ∧ ∃ q, exec (.memoryLineAccess m line acc (.corrected 1) .good) s = .next q ∧ q.mem = s.mem
            ∧ (addrTier (64 * l) = .pond → q.fld (Reg.ctl.POND_CE k) 31 0 = satInc 32 (s.fld (Reg.ctl.POND_CE k) 31 0))
            ∧ (addrTier (64 * l) = .lake → q.fld (Reg.ctl.LAKE_CE k) 31 0 = satInc 32 (s.fld (Reg.ctl.LAKE_CE k) 31 0))
            ∧ s.Frame ([.memStacks, .stackCores, .pools] ++ reportParts) q)
        ∧ (∀ d en, acc = .write d en → v.stackSluice (64 * l) m.toNat true = (v, false) →
          ∃ q, exec (.memoryLineAccess m line acc .clean .good) s = .next q
            ∧ (∀ i, i < 64 → q.mem.rd (64 * l + i) = if en.getD i true then d.getD i 0 else s.mem.rd (64 * l + i))
            ∧ (∀ a, a < 64 * l ∨ 64 * l + 64 ≤ a → q.mem.rd a = s.mem.rd a) ∧ s.Frame [.mem, .memTag, .pools] q))
      ∧ (acc = .read → m.toNat < 6 → v.stackSluice (64 * l) m.toNat false = (v, false) →
        ∃ q, exec (.memoryLineAccess m line acc .uncorrectable .good) s = .next q ∧ q.mem = s.mem
          ∧ q.fld (Reg.ctl.UE_COUNT k) 15 0 = satInc 16 (s.fld (Reg.ctl.UE_COUNT k) 15 0)
          ∧ q.fld (Reg.ctl.UE_ADDR_LO k) 31 6 = bits (64 * l) 31 6 ∧ q.fld (Reg.ctl.UE_ADDR_HI k) 9 0 = bits (64 * l) 41 32
          ∧ (s.channelGone l = false → (q.stack k).spareQ.any (fun e => decide (rowOf e.1 = rowOf l) && e.2) = true)
          ∧ s.Frame ([.memTag, .memStacks, .stackCores, .pools] ++ reportParts) q)
      ∧ (m.toNat < 6 → ∀ u, ∃ q, exec (.memoryLineAccess m line acc u .badData) s = .next q ∧ s.Frame ([.pools] ++ reportParts) q))

/-- A Mill operation on an aligned element replaces it by the operation's result, counts one operation, and changes no other byte (R246 to
R249); under a slice of the Mill it waits (R409), and a code of no master makes none (R402); neither does a misaligned one (assumption 47:
the model's reading). Integer ADD wraps, and MA_INT_WRAP counts its wraps (R247, R250), MIN and MAX compare signed, a float MIN or MAX with a
NaN gives the canonical NaN, and so does the STORE of one (R247). -/
def Obligations.MillOperate : Prop :=
  (∀ (m : BitVec 6) (ty : MillType) (a : BitVec 42) (x : BitVec 64) (op : Fin 4) (s : State),
      let c : Instr := [Instr.millAdd m ty a x, .millMin m ty a x, .millMax m ty a x, .millStore m ty a x].getD op.val .idcode
      let t := MillType.code ty
      let w := millBytes t
      (masterPage m.toNat = .unassigned ∨ a.toNat % w ≠ 0 ∨ s.sliceHoldsMill (addrStack a.toNat) = true → exec c s = .next s)
      ∧ (masterPage m.toNat ≠ .unassigned → a.toNat % w = 0 → s.sliceHoldsMill (addrStack a.toNat) = false → s.Canonical →
        s.memWaits a.toNat w = false → s.up = true → s.tagsReady m.toNat (memPools a.toNat w) = true →
        s.stackSluice a.toNat m.toNat true = (s, false) → s.lineBad (a.toNat / 64) = false → s.lineCorrected (a.toNat / 64) = false →
        ∃ q, exec c s = .next q
          ∧ (∀ i, i < w → q.mem.rd (a.toNat + i)
              = (leBytes w (millElem op.val t (leNat (s.rawBytes a.toNat w)) (leNat (leBytes w x.toNat))).1).getD i 0)
          ∧ (∀ b, b < a.toNat ∨ a.toNat + w ≤ b → q.mem.rd b = s.mem.rd b)
          ∧ q.reg (Reg.mad.MA_OPS (addrStack a.toNat)) = s.reg (Reg.mad.MA_OPS (addrStack a.toNat)) + 1
          ∧ q.fld (Reg.mad.MA_INT_WRAP (addrStack a.toNat)) 31 0 = satAdd 32 (s.fld (Reg.mad.MA_INT_WRAP (addrStack a.toNat)) 31 0)
              (b2n (millElem op.val t (leNat (s.rawBytes a.toNat w)) (leNat (leBytes w x.toNat))).2)
          ∧ s.Frame [.regs, .mem, .memTag, .pools] q))
  ∧ ((∀ ty m x, 2 ≤ ty → m < 2 ^ (8 * millBytes ty) → x < 2 ^ (8 * millBytes ty) →
      (millElem 0 ty m x).1 = (m + x) % 2 ^ (8 * millBytes ty)
      ∧ ((millElem 0 ty m x).2 = true ↔ ¬ (-(2 : Int) ^ (8 * millBytes ty - 1) ≤ sext (8 * millBytes ty) m + sext (8 * millBytes ty) x
          ∧ sext (8 * millBytes ty) m + sext (8 * millBytes ty) x < (2 : Int) ^ (8 * millBytes ty - 1)))
      ∧ sext (8 * millBytes ty) (millElem 1 ty m x).1 = min (sext (8 * millBytes ty) m) (sext (8 * millBytes ty) x)
      ∧ sext (8 * millBytes ty) (millElem 2 ty m x).1 = max (sext (8 * millBytes ty) m) (sext (8 * millBytes ty) x)
      ∧ (millElem 3 ty m x).1 = x)
    ∧ (∀ ty m x, ty < 2 →
      (((millFmt ty).decode m).isNaN = true ∨ ((millFmt ty).decode x).isNaN = true →
        (millElem 1 ty m x).1 = (millFmt ty).canonNaN ∧ (millElem 2 ty m x).1 = (millFmt ty).canonNaN)
      ∧ (((millFmt ty).decode x).isNaN = true → (millElem 3 ty m x).1 = (millFmt ty).canonNaN)))

/-- A running vector unit whose table's next record is of the command's kind runs it and goes on to the record after it, or stands IDLE at
its step safe point after the last; another kind's command runs nothing, and a record that its checks refuse stops and freezes the unit
(R253, R255, R258); a kernel that draws by a seed register of bad parity runs nothing (R122). CAST writes each master weight rounded to BF16
(R255). VERDICT_CTRL acts on a halted unit alone: 1 runs its table, 2 skips it and counts the skip (R254). RELEASE frees the frozen
generation, and the unit that waits for it runs (R256). -/
def Obligations.VectorUnitRuns : Prop :=
  (∀ (k : StackId) (kind : Fin 4) (s : State) (d : List Byte),
      let c : Instr := [Instr.copy k, .sgdm k, .adamw k, .cast k].getD kind.val .idcode
      let a := s.pair (Reg.mkv.MK_TABLE_LO k) (Reg.mkv.MK_TABLE_HI k) + 64 * (s.stack k).mkRec
      let r := kernelRecOf (leNat d)
      let g := s.useTags (Master.mill k) (mkPools k a)
      let x := g.mkRead k a 64
      let ok := kernelOk (leNat d) (s.mkSingle k) (s.genBase k 0) (s.genBase k 1)
      (s.stack k).vu = .running → (s.stack k).mkStopped = false → s.frozen (Master.mill k) = false → s.selfRefresh k = false →
      s.sliceHoldsMill k = false → s.up = true → s.memWaits a 64 = false → s.tally.live = false →
      s.tagsReady (Master.mill k) (mkPools k a) = true → x.2 = some d →
      (ok = true → r.kind ≠ kind.val → exec c s = .next g)
      ∧ (ok = false → s.Canonical → ∃ q, exec c s = .next q ∧ (q.stack k).mkStopped = true ∧ q.frozen (Master.mill k) = true
          ∧ q.mem = s.mem)
      ∧ (ok = true → r.kind = kind.val → kind = 1 ∨ kind = 2 → ∀ inj, s.drawFault false true = some inj →
          exec c s = .next (x.1.springFault inj) ∧ (x.1.springFault inj).mem = s.mem)
      ∧ (ok = true → r.kind = kind.val → (kind = 1 ∨ kind = 2 → s.drawFault false true = none) →
        let q := x.1.mkGroups k r ((r.count + 31) / 32) 0
        (q.stack k).mkStopped = false →
        exec c s = .next (q.mkNext k)
        ∧ ((q.stack k).mkRec + 1 < q.mkCount k → ((q.mkNext k).stack k).mkRec = (q.stack k).mkRec + 1
            ∧ ((q.mkNext k).stack k).vu = (q.stack k).vu)
        ∧ (q.mkCount k ≤ (q.stack k).mkRec + 1 → ((q.mkNext k).stack k).vu = .idle ∧ ((q.mkNext k).stack k).mkAtSafe = true)
        ∧ (kind = 3 → s.Canonical → r.count ≤ 32 → ∀ j, j < r.count →
            q.mem.rdBytes (pondAddr k r.out + 2 * j) 2
              = leBytes 2 (rneBf16 (wordAt (s.rawBytes (lakeAddr k (s.genBase k (s.liveGen k) + r.w)) (4 * r.count)) (4 * j))))
        ∧ q.crib = s.crib ∧ q.loft = s.loft ∧ q.gran = s.gran))
  ∧ (∀ (w : Writer) (k : StackId) (s : State),
      let x := s.stack k
      (s.takesClean w (Reg.mkv.VERDICT_CTRL k) = true →
        (x.vu ≠ .halted → exec (.verdictCtrlRun w k) s = .next s ∧ exec (.verdictCtrlSkip w k) s = .next s)
        ∧ (x.vu = .halted → s.mkCkpt k = false → s.selfRefresh k = false →
          (s.mkSingle k = false → exec (.verdictCtrlRun w k) s = .next (s.setStack k { x with mkAlt := false, vu := .running }))
          ∧ (s.mkSingle k = true → s.genFrozen k = false → exec (.verdictCtrlRun w k) s = .next (s.setStack k { x with vu := .running })))
        ∧ (x.vu = .halted → ∃ q, exec (.verdictCtrlSkip w k) s = .next q ∧ (q.stack k).vu = .idle ∧ (q.stack k).mkAtSafe = true
              ∧ (q.stack k).mkSkipped = true ∧ (s.Canonical → q.fld (Reg.mkv.MK_SKIPS k) 15 0 = satInc 16 (s.fld (Reg.mkv.MK_SKIPS k) 15 0))
              ∧ s.Frame ([.memStacks] ++ reportParts) q))
      ∧ (s.takesClean w (Reg.mkv.GEN_RELEASE k) = true → s.Canonical → ∃ q, exec (.release w k) s = .next q ∧ q.genFrozen k = false
          ∧ (x.vu = .awaitRelease → s.selfRefresh k = false → (q.stack k).vu = .running)
          ∧ (x.vu ≠ .awaitRelease → q.memStacks = s.memStacks) ∧ s.Frame [.regs, .memStacks] q))

/-- FP-B spares the next row: its lines are marked good, those beyond correction read zero and are kept in the repair log, every other byte
stays, ROWS_SPARED counts it; with no spare left in its die and bank the channel retires (R262 to R264; what a die and bank has left is
assumption 11: the model's choice). GO in REPAIR_CTRL queues the row, for the management port and FP-B alone; an address of another stack is
refused with FORMAT (R269, R270). -/
def Obligations.RowsAreSpared : Prop :=
  ∀ (w : Writer) (k : StackId) (s : State), s.Canonical →
    let err := (Page.rep k).base + Reg.header.ERR_STATUS
    (∀ l now, s.spareNow k = some (l, now) → s.fpbRuns = true → s.selfRefresh k = false → s.up = true →
      let t := addrTier (64 * l)
      let left := (s.stack k).leftIn (bankOf (rowOf l))
      (left ≠ 0 → ∃ q, exec (.rowSpare k) s = .next q
        ∧ (∀ l', rowOf l' = rowOf l → q.memTag.rd l' = 0)
        ∧ (∀ a, q.mem.rd a = if rowOf (a / 64) = rowOf l ∧ 2 ≤ (s.memTag.rd (a / 64)).toNat then 0 else s.mem.rd a)
        ∧ (q.stack k).repairLog = (s.stack k).repairLog ++ [(rowOf l, s.lostLines (rowOf l))]
        ∧ q.fld (Reg.rep.ROWS_SPARED k) 15 0 = satInc 16 (s.fld (Reg.rep.ROWS_SPARED k) 15 0)
        ∧ s.Frame [.regs, .mem, .memTag, .memStacks, .stackCores, .barns] q)
      ∧ (left = 0 → s.sliceInChannel k t = false → ∃ q, exec (.rowSpare k) s = .next q ∧ q.mem = s.mem
        ∧ (t = .pond → (q.stack k).pondRetired = true) ∧ (t = .lake → (q.stack k).lakeRetired = true)))
    ∧ (s.takesClean w (Reg.rep.REPAIR_CTRL k) = true →
      let a := s.pair (Reg.rep.REPAIR_ADDR_LO k) (Reg.rep.REPAIR_ADDR_HI k)
      (repairWriter w = true → addrStack a = k → exec (.repairCtrlGo w k) s = .next (s.queueSpare k (a / 64) true)
        ∧ ((s.queueSpare k (a / 64) true).stack k).spareQ.any (fun e => decide (rowOf e.1 = rowOf (a / 64)) && e.2) = true)
      ∧ (repairWriter w = true → addrStack a ≠ k → ∃ q, exec (.repairCtrlGo w k) s = .next q ∧ q.frozen w.id = false
        ∧ ((s.reg err).field 7 0 = 0 → (q.reg err).field 7 0 = Cause.FORMAT) ∧ s.Frame reportParts q
        ∧ ∀ j, (q.stack j).spareQ = (s.stack j).spareQ)
      ∧ (repairWriter w = false → ∃ q, exec (.repairCtrlGo w k) s = .next q ∧ q.frozen w.id = true
        ∧ ((s.reg err).field 7 0 = 0 → (q.reg err).field 7 0 = Cause.STATE_DISAGREE) ∧ s.Frame reportParts q
        ∧ ∀ j, (q.stack j).spareQ = (s.stack j).spareQ))

/-! ## Gauge and the supply -/

/-- A sample is taken once 10 µs of the reference have passed, and keeps its readings (R44, R49). A running pace counter's beats give its
beat (R44), BEAT_PS at most 4,095 (assumption 57: the model's reading). At 115 °C the module trips and stops (R375); below, a native
setpoint moves by at most 5 mV on each die (R372), and the next sample counts array beats from here. Ill-formed readings are no sample. -/
def Obligations.GaugeSamples : Prop :=
  ∀ (r : Readings) (s : State),
    let m := (s.takeReadings r).gauge.prev
    (r.wellFormed = false → exec (.gaugeSample r) s = .refused .illFormed)
    ∧ (r.wellFormed = true → s.gauge.sampleElapsed < samplePeriod ∨ s.up = false → exec (.gaugeSample r) s = .next s)
    ∧ (r.wellFormed = true → s.up = true → samplePeriod ≤ s.gauge.sampleElapsed → ∃ q, exec (.gaugeSample r) s = .next q
      ∧ q.gauge.prev = m ∧ q.gauge.sampleElapsed = s.gauge.sampleElapsed - samplePeriod
      ∧ (∀ (e : EngId) (n : Nat), s.Canonical → m.pace.getD e none = some n → s.paces e = true →
          s.regBit (Reg.engine.BEAT_CTRL e) 0 = true →
          (q.engine e).paceBeats = (s.engine e).paceBeats + BitVec.ofNat 64 n
          ∧ (n ≠ 0 → q.fld (Reg.engine.BEAT_MEAS e) 11 0 = min 4095 (10000000 / n)))
      ∧ (115 ≤ max (m.hottest false) (m.hottest true) → q.module.power = .stopped ∧ q.gauge.tripped = true)
      ∧ (max (m.hottest false) (m.hottest true) < 115 → q.gauge.tripped = s.gauge.tripped
        ∧ (∀ e, (q.engine e).workMark = (q.engine e).workBeats)
        ∧ (s.Canonical → s.gowell = false → s.floorMv ≤ 1023 → ∀ east,
            q.setpoint east ≤ s.setpoint east + 5 ∧ s.setpoint east ≤ q.setpoint east + 5))
      ∧ q.mem = s.mem ∧ q.crib = s.crib ∧ q.loft = s.loft ∧ (s.granWaits = [] → q.gran = s.gran))

/-- A rail below its warning level holds the module with BO_PACE in force; the hold ends, and is counted, when its last rail clears (R379,
R380). A reset crossing stops the module in the Fatal state from START, TEST, RUN and HOLD, and does nothing in OFF and STOPPED (R381,
R382). A high warning is reported and does nothing else (R378). -/
def Obligations.SupplyHoldsAndStops : Prop :=
  ∀ (rail : Rail) (reading : Nat) (inputOn : Bool) (s : State),
    (s.Canonical → s.module.power = .run → s.gauge.holdRails = [] → reading ≤ rail.warnLevel →
      ∃ q, exec (.brownoutHold rail reading) s = .next q
      ∧ q.module.power = .hold ∧ q.gauge.qHold = s.fld Reg.gauge.BO_PACE 8 0 ∧ q.gauge.holdRails = [rail]
      ∧ q.gauge.holdSince = s.time ∧ q.fld Reg.gauge.BO_LAST 12 0 = reading % 8192
      ∧ s.Frame ([.gauge, .module] ++ reportParts) q)
    ∧ (s.Canonical → s.module.power = .hold → s.gauge.holdRails = [rail] → ∃ q, exec (.brownoutClear rail) s = .next q
      ∧ q.module.power = .run ∧ q.gauge.qHold = 256 ∧ q.gauge.holdRails = []
      ∧ q.fld Reg.gauge.BO_COUNT 15 0 = satInc 16 (s.fld Reg.gauge.BO_COUNT 15 0) ∧ s.Frame ([.gauge, .module] ++ reportParts) q)
    ∧ (s.module.power ≠ .off → s.module.power ≠ .stopped → ∃ q, exec (.supplyReset ⟨rail, inputOn⟩) s = .next q
      ∧ q.module.power = .stopped ∧ q.module.mgmtOn = inputOn ∧ q.fatal = true ∧ q.gauge.stopReason = rail.reason
      ∧ q.mem = s.mem ∧ q.crib = s.crib ∧ q.loft = s.loft ∧ q.gran = s.gran)
    ∧ ((s.module.power = .off ∨ s.module.power = .stopped) → exec (.supplyReset ⟨rail, inputOn⟩) s = .next s)
    ∧ (s.Canonical → s.monitored = true →
      let err := Page.gauge.base + Reg.header.ERR_STATUS
      ∃ q, exec (.supplyHighWarn rail) s = .next q ∧ s.Frame reportParts q ∧ q.tally = s.tally
      ∧ ((s.reg err).field 7 0 = 0 → (q.reg err).field 7 0 = Cause.SUPPLY_WARN))
    ∧ (s.monitored = false → exec (.supplyHighWarn rail) s = .next s ∧ exec (.brownoutHold rail reading) s = .next s
      ∧ exec (.brownoutClear rail) s = .next s)

/-! ## Releases and processors -/

/-- A release by a master that may (R403) clears FROZEN (R401): a Flume, the host and the management port go on, a barn's segment is
aborted and stands IDLE, a vector unit stands at STATE 0, a processor makes the RESTART that it held; a master that is not frozen is left
alone. Another master's write leaves the target frozen and freezes the writer. A write of ERR_STATUS with bit 31 clears the whole register,
one without does nothing, and an event recorded after the clear stands in it with OVERFLOW 0 (R466). -/
def Obligations.ReleasesAndErrorClears : Prop :=
  ∀ (w : Writer) (m : BitVec 6) (s : State),
    let a := (masterPage m.toNat).base + Reg.header.FREEZE
    let c := exec (.freezeRelease w m) s
    (s.takesClean w a = true → s.Canonical → masterPage m.toNat ≠ .unassigned → s.fatal = false →
      (w.mayRelease m.toNat = true → s.frozen m.toNat = false → c = .next s)
      ∧ (w.mayRelease m.toNat = true → s.frozen m.toNat = true →
        (m.toNat < 2 ∨ 0x10 ≤ m.toNat ∧ m.toNat < 0x30 → c = .next (s.setFld a 0 0 0))
        ∧ (2 ≤ m.toNat → m.toNat < 6 → (s.fp (m.toNat - 2)).restartHeld = false → c = .next (s.setFld a 0 0 0))
        ∧ (2 ≤ m.toNat → m.toNat < 6 → (s.fp (m.toNat - 2)).restartHeld = true →
            s.slotOk (m.toNat - 2) ((s.fp (m.toNat - 2)).slot (s.fp (m.toNat - 2)).slotB) = true →
            ((s.fp (m.toNat - 2)).exhausted = true ∨ s.restartsNow (m.toNat - 2) < 3) →
            ∃ t, c = .next t ∧ t.frozen m.toNat = false ∧ (t.fp (m.toNat - 2)).state = .running
              ∧ (t.fp (m.toNat - 2)).restarts = satInc 16 (s.fp (m.toNat - 2)).restarts
              ∧ (t.fp (m.toNat - 2)).restartHeld = false ∧ s.Frame ([.fps] ++ reportParts) t)
        ∧ (8 ≤ m.toNat → m.toNat < 16 → s.sliceAt (m.toNat - 8) = false → ∃ t, c = .next t
            ∧ t.frozen m.toNat = false ∧ (t.barn (m.toNat - 8)).phase = .idle ∧ s.Frame abortParts t)
        ∧ (0x30 ≤ m.toNat → ∃ t, c = .next t ∧ t.frozen m.toNat = false
            ∧ (t.stack (m.toNat - 0x30)).vu = .idle ∧ s.Frame [.regs, .memStacks] t))
      ∧ (w.mayRelease m.toNat = false → s.frozen m.toNat = true →
          ∃ t, c = .next t ∧ t.frozen m.toNat = true ∧ t.frozen w.id = true ∧ s.Frame reportParts t))
    ∧ (∀ r : BitVec 26,
        let e := (pageOf r.toNat).base + Reg.header.ERR_STATUS
        s.takesClean w e = true → pageOf e ≠ .unassigned → inGranary e = false → s.absentPage e = false →
        repairPage w (pageOf e) = true → (regDef? e).isSome = true → pageOffset e = Reg.header.ERR_STATUS →
        (pageOf e).base + Reg.header.ERR_STATUS = e →
          exec (.errStatusClear w r) s = .next (s.setReg e 0)
          ∧ (∀ v : Word, e % 4 = 0 → e < 2 ^ 26 → (w = .host → s.tunOffset e = none) →
              exec (.registerWrite w (BitVec.ofNat 26 e) ⟨⟨v, none⟩, .good⟩) s = .next (if bit v.toNat 31 then s.setReg e 0 else s))
          ∧ (∀ (src : Nat) (ev : Event), s.Canonical → src < 128 → ev.cls ≤ 4 →
              let q := ((s.setReg e 0).reportAt (pageOf e) src ev).reg e
              q.field 7 0 = ev.cause % 256 ∧ q.field 10 8 = ev.cls ∧ q.field 16 11 = ev.master % 64 ∧ q.field 31 17 = 0))

/-- A processor restarts alone: its image is verified and runs, the restart is counted, and no other processor changes (R415 to R417); on a
frozen one RESTART waits for the release, and the fourth restart within the window halts it exhausted (R417). FP-B's own RESTART and another
processor's are refused (R415). Its own kick restarts its watchdog, another master's does nothing (R414). A corrected word of its local
memory is counted (R413); an uncorrectable one and its expired watchdog restart it, in a start for the first time too (R433), and FP-P's
watchdog in the Gowell-compatible mode gives the loops back to hardware (R377). -/
def Obligations.ProcessorsRestart : Prop :=
  ∀ (w : Writer) (k : FpId) (s : State),
    let x := s.fp k
    let good (t : State) : Prop := (t.fp k).state = .running ∧ (t.fp k).restarts = satInc 16 x.restarts ∧ (t.fp k).wdElapsed = 0
      ∧ (t.fp k).exhausted = false ∧ ∀ j, j ≠ k.val → t.fp j = s.fp j
    (s.takesClean w (Reg.fp.FP_CTRL k) = true →
      (w ∈ [.host, .mgmt] → s.frozen (Master.fp k) = true → exec (.restart w k) s = .next (s.setFp k { x with restartHeld := true }))
      ∧ (w ∈ [.host, .mgmt] ∨ w = .fp 0 ∧ k ≠ 0 → s.frozen (Master.fp k) = false →
        (s.slotOk k (x.slot x.slotB) = true → (x.exhausted = false ∧ s.restartsNow k < 3 ∨ x.exhausted = true ∧ w ∈ [.host, .mgmt]) →
          ∃ t, exec (.restart w k) s = .next t ∧ good t ∧ s.Frame ([.fps] ++ reportParts) t)
        ∧ (x.exhausted = false → 3 ≤ s.restartsNow k →
          exec (.restart w k) s = .next (s.setFp k { x with state := .halted, exhausted := true }))
        ∧ (x.exhausted = true → w = .fp 0 → exec (.restart w k) s = .next s))
      ∧ (s.Canonical → (∃ j : Fin 4, w = .fp j ∧ (j ≠ 0 ∨ k = 0)) →
        ∃ t, exec (.restart w k) s = .next t ∧ t.frozen w.id = true ∧ s.Frame reportParts t))
    ∧ (s.takesClean w (Reg.fp.WD_KICK k) = true →
      exec (.wdKick w k) s = .next (if w.id = Master.fp k then s.setFp k { x with wdElapsed := 0 } else s))
    ∧ (s.Canonical → s.fatal = false → x.state = .running → x.exhausted = false → s.restartsNow k < 3 →
      s.slotOk k (x.slot x.slotB) = true →
      (s.up = true ∨ s.starting = true → (∃ t, exec (.localMemoryUncorrectable ⟨k, .uncorrectable⟩) s = .next t ∧ good t
          ∧ s.Frame ([.fps] ++ reportParts) t)
        ∧ ∀ more, ∃ t, exec (.localMemoryUncorrectable ⟨k, .corrected more⟩) s = .next t ∧ s.Frame [.regs] t
          ∧ t.fld (Reg.fp.LOCAL_ECC k) 15 0 = satAdd 16 (s.fld (Reg.fp.LOCAL_ECC k) 15 0) (more + 1))
      ∧ (s.frozen (Master.fp k) = false → reachedMs x.wdElapsed (s.fld (Reg.fp.WD_PERIOD k) 15 0) = true →
        (s.up = true → ∃ t, exec (.watchdog k) s = .next t ∧ good t
          ∧ (k = 3 → s.regBit Reg.gauge.GOV_MODE 0 = true → t.gauge.fwFallback = true ∧ t.gauge.fwNative = true)
          ∧ s.Frame ([.fps, .gauge] ++ reportParts) t)
        ∧ (s.starting = true → k ≠ 0 → x.wdInStart = 0 → ∃ t, exec (.watchdog k) s = .next t ∧ good t ∧ (t.fp k).wdInStart = 1
          ∧ s.Frame ([.fps] ++ reportParts) t)))
    ∧ (reachedMs x.wdElapsed (s.fld (Reg.fp.WD_PERIOD k) 15 0) = false → exec (.watchdog k) s = .next s)

/-- SVN_COMMIT by the host window or the management port raises the fused version to the lowest that runs, where that is higher, any other
write does nothing, and a slot below the fused version fails (R422). An update writes the inactive slot and leaves the active one; the slot
is invalid until it is verified at the update's end, and stays so where a start begins meanwhile; that an update so has two phases, writing
until the next tick, is assumption 89: the model's choice. Activation takes what was verified: FP-B's at the next start, another processor's
at its restart alone (R423). One attestation runs at a time (R425), and its report of 448 bytes and their signature stand at ATT_ADDR at the
end, of which vector 37 tells (R444); that a nonce in an uncorrectable line is signed as ones is assumption 55: the model's reading. -/
def Obligations.VersionsUpdatesAttestation : Prop :=
  ∀ (w : Writer) (k : FpId) (man img : List Byte) (s : State),
    let x := s.fp k
    (s.takesClean w (Reg.fp.SVN_COMMIT 0) = true → exec (.svnCommit w) s = .next (
      if w ∈ [.host, .mgmt] ∧ s.fuses.svn < s.lowestSvn then { s with fuses := { s.fuses with svn := s.lowestSvn } } else s)
      ∧ (∀ v : Word, bit v.toNat 0 = false → (w = .host → s.tunOffset (Reg.fp.SVN_COMMIT 0) = none) →
          exec (.registerWrite w (BitVec.ofNat 26 (Reg.fp.SVN_COMMIT 0)) ⟨⟨v, none⟩, .good⟩) s = .next s)
      ∧ (∀ (j : Nat) (y : ImageSlot), y.svn j < s.lowestSvn →
          ({ s with fuses := { s.fuses with svn := s.lowestSvn } } : State).slotOk j y = false))
    ∧ (s.up = true → s.fatal = false → s.fpbRuns = true →
      (∃ t, exec (.firmwareUpdate k man img) s = .next t ∧ (t.fp k).slot x.slotB = x.slot x.slotB ∧ (t.fp k).slotB = x.slotB
        ∧ (t.fp k).slot (!x.slotB) = ⟨man, img, false⟩ ∧ (t.fp k).writing = true ∧ (t.fp k).updated = false
        ∧ (∀ warm, let z := (t.atStart warm).fp k
            z.slotB = x.slotB ∧ z.slot x.slotB = x.slot x.slotB ∧ (z.slot (!x.slotB)).valid = false ∧ z.writing = false)
        ∧ (t.fp k).state = x.state ∧ (∀ j, j ≠ k.val → t.fp j = s.fp j) ∧ s.Frame ([.fps] ++ reportParts) t)
      ∧ (x.writing = true →
          let y : ImageSlot := { x.slot (!x.slotB) with valid := true }
          let q := s.endUpdate k
          ((q.fp k).updated = true ↔ y.factory = false ∧ s.slotOk k y = true) ∧ (q.fp k).writing = false
            ∧ (q.fp k).slot (!x.slotB) = { y with valid := (q.fp k).updated } ∧ (q.fp k).slot x.slotB = x.slot x.slotB
            ∧ (q.fp k).state = x.state ∧ (∀ j, j ≠ k.val → q.fp j = s.fp j) ∧ s.Frame ([.fps] ++ reportParts) q)
      ∧ (∃ t, exec .activateFirmware s = .next t ∧ (∀ j, j < 4 → (s.fp j).updated = false → t.fp j = s.fp j)
        ∧ ((s.fp 0).updated = true → (t.fp 0).slotB = !(s.fp 0).slotB ∧ (t.fp 0).newPending = true ∧ (t.fp 0).state = (s.fp 0).state)
        ∧ (s.Canonical → ∀ j, 0 < j → j < 4 → (s.fp j).updated = true → (s.fp j).exhausted = false → s.frozen (Master.fp j) = false →
            s.slotOk j ((s.fp j).slot (!(s.fp j).slotB)) = true →
            (t.fp j).state = .running ∧ (t.fp j).slotB = !(s.fp j).slotB ∧ (t.fp j).restarts = satInc 16 (s.fp j).restarts)
        ∧ s.Frame ([.fps] ++ reportParts) t))
    ∧ (s.takesClean w (Reg.fp.ATT_CTRL 0) = true →
      (s.fld (Reg.fp.ATT_STATUS 0) 1 0 ≠ 1 → exec (.attCtrlGo w) s = .next (s.setFld (Reg.fp.ATT_STATUS 0) 1 0 1))
      ∧ (s.Canonical → s.fld (Reg.fp.ATT_STATUS 0) 1 0 = 1 → ∃ t, exec (.attCtrlGo w) s = .next t ∧ t.frozen w.id = true
          ∧ t.fld (Reg.fp.ATT_STATUS 0) 1 0 = 1 ∧ s.Frame reportParts t))
    ∧ (let a := s.pair (Reg.fp.ATT_ADDR_LO 0) (Reg.fp.ATT_ADDR_HI 0)
      let m := Master.fp 0
      let l := accPools [(a, 512)]
      let r := (s.useTags m l).memRead m (a + 8) 32
      let body := r.1.attBody (r.2.getD (List.replicate 32 0xFF))
      let q := r.1.memWrite m a (body ++ r.1.attSign body)
      s.Canonical → s.fld (Reg.fp.ATT_STATUS 0) 1 0 = 1 → s.up = true → s.fatal = false → s.fpbRuns = true →
        (s.memWaits a 512 = true → exec .attestationDone s = .next s)
        ∧ (s.memWaits a 512 = false → s.tagsReady m l = false → exec .attestationDone s = .next (s.joinPools m l))
        ∧ (s.memWaits a 512 = false → s.tagsReady m l = true →
          ∃ t, exec .attestationDone s = .next t ∧ t.fld (Reg.fp.ATT_STATUS 0) 1 0 = 2
          ∧ (s.host.linkUp = true → s.host.d3hot = false → s.host.msixMasked 37 = false → HostMsg.msix 37 ∈ t.host.out)
          ∧ (q.2 = true → ∀ i, i < 512 → t.mem.rd (a + i) = (body ++ r.1.attSign body).getD i 0)
          ∧ (∀ b, b < a ∨ a + 512 ≤ b → t.mem.rd b = s.mem.rd b)))

/-! ## Starts and power -/

/-- A start begins from every cause that may begin one: power-on with the junction warm or once it is, START_CTRL, MOD_RST_N, PERST# and Hot
Reset, and the cold start a second after a failure (R382, R426, R434, R439, R456). Device memory keeps its contents through a warm start
alone (R432), the fuses through all (R428). TEST_MODE leads to TEST, and a cold junction waits (R382); that the module stands OFF while it
waits is assumption 67, and that memory, Crib and Loft then hold nothing is assumption 2: the model's choices. A request while no unit runs
begins none (R426); one made while a slice runs waits for its end, and a further one has no effect (R409; assumption 112: the model's
reading). -/
def Obligations.StartsBegin : Prop :=
  ∀ (w : Writer) (straps : Straps) (tj : Nat) (s : State),
    (∀ (c : Instr) (warm : Bool), s.Canonical →
      ((c = .powerOn straps tj ∧ s.module.power = .off ∧ s.module.coldHeld = false ∧ straps.testMode = false ∧ 5 ≤ tj ∧ warm = false)
        ∨ (c = .junctionReady ∧ s.module.power = .off ∧ s.module.coldHeld = true ∧ warm = false)
        ∨ (c = .forceCold ∧ s.module.power = .start ∧ s.fatal = false ∧ warm = false
            ∧ ∃ n, s.module.failTicks = some n ∧ reachedMs n 1000 = true)
        ∨ (s.up = true ∧ s.fatal = false ∧ s.sliceRun = [] ∧ s.module.startDue = none
            ∧ ((w ∈ [.host, .mgmt, .fp 0] ∧ s.takesClean w Reg.global.START_CTRL = true
              ∧ (c = .warm w ∧ warm = true ∨ c = .cold w ∧ warm = false))
            ∨ (c ∈ [.modRstN, .perstN, .hotReset] ∧ warm = true)))) →
      ∃ t, exec c s = .next t ∧ t.module.power = .start ∧ t.module.startWarm = warm ∧ t.module.startTicks = 0 ∧ t.module.failTicks = none
        ∧ t.startStatus.field 3 0 = 1 ∧ t.fld Reg.global.START_STATUS 4 4 = b2n warm ∧ t.fld Reg.global.START_STATUS 6 5 = 0
        ∧ (warm = false → t.mem = []) ∧ (warm = true → s.host.waiting = [] → s.host.winHeld = [] → t.mem = s.mem)
        ∧ t.fuses = s.fuses ∧ t.time = 0
        ∧ (∀ b, b < 8 → t.barn b = Barn.reset) ∧ (∀ f, f < 32 → (t.flume f).state = .idle ∧ (t.flume f).retired = (s.flume f).retired)
        ∧ (∀ k, k < 4 → (t.fp k).state = .halted ∧ (t.fp k).slots = (s.fp k).slots) ∧ t.crib = [] ∧ t.loft = [] ∧ t.gran = [])
    ∧ (s.module.power = .off → s.module.coldHeld = false →
      (straps.testMode = true → exec (.powerOn straps tj) s
        = .next { s with module := { s.module with straps := straps, ref100 := true, ref156 := true, power := .test, mgmtOn := true } })
      ∧ (straps.testMode = false → tj < 5 → exec (.powerOn straps tj) s
        = .next { s with module := { s.module with straps := straps, ref100 := true, ref156 := true, coldHeld := true } }))
    ∧ (∀ (c : Instr) (warm : Bool),
      c = .modRstN ∧ warm = true ∨ (w ∈ [.host, .mgmt, .fp 0] ∧ s.takesClean w Reg.global.START_CTRL = true
        ∧ (c = .warm w ∧ warm = true ∨ c = .cold w ∧ warm = false)) →
      (s.up = false ∨ s.fatal = true ∨ s.module.startDue.isSome = true → exec c s = .next s)
      ∧ (s.up = true → s.fatal = false → s.module.startDue = none → s.sliceRun ≠ [] →
        exec c s = .next { s with module := { s.module with startDue := some warm } }))

/-- A start whose steps all come to their end ends in RUN with RESULT 1, and START_TIME shows how long it took (R430, R431, R436); each step
leaves its trace point, and PHASE shows the step in progress. In a hold it ends in HOLD (assumption 96), and START_COMPLETE runs the steps as
far as the command says (assumption 21): the model's choices. The fuse-map failure, a processor without a verifiable image, a failing block
of a cold start, a watchdog and the time limit fail it: RESULT 2, FAIL_STEP the step that failed, and a cold start follows, or the third
failed cold start in a row locks the module in STOPPED with its host link down (R433, R434, R436). -/
def Obligations.StartsEnd : Prop :=
  ∀ (o : StartOutcome) (s : State), s.Canonical → s.starting = true →
    let n := s.module.startStep
    let warm := s.module.startWarm
    let late := reachedMs s.module.startTicks (if warm then 10000 else 60000)
    let noImage (k : Nat) : Prop := ∀ b, s.slotOk k ((s.fp k).slot b) = false
    1 ≤ n → n ≤ 12 →
    (late = false → (n ≤ 2 → o.fuseMapBad = false) → (o.blockFailed = false ∨ 4 < n ∨ warm = true ∧ n ≠ 4) →
      (n ≤ 3 → ∀ k, k < 4 → ¬ noImage k) → (3 < n → ∀ k, k < 4 → (s.fp k).state = .running) →
      (12 ≤ o.upTo → ∃ t, exec (.startComplete o) s = .next t ∧ t.module.power = (if s.inHold then .hold else .run)
        ∧ t.fld Reg.global.START_STATUS 6 5 = 1 ∧ t.startStatus.field 3 0 = 0 ∧ t.fld Reg.global.START_STATUS 21 20 = 0
        ∧ t.reg Reg.global.START_TIME = BitVec.ofNat 32 (usOf s.module.startTicks / 1000) ∧ t.fld Reg.global.AVAIL_EPOCH 15 0 = 0
        ∧ (∀ k, k < 4 → (t.fp k).state = .running) ∧ (∀ k, k < 16 → t.selfRefresh k = false)
        ∧ t.mem = s.mem ∧ (n ≤ 2 → t.fuses.idSeed.isSome = true) ∧ t.fuses.svn = s.fuses.svn)
      ∧ (o.upTo = n → n < 12 → ∃ t, exec (.startComplete o) s = .next t ∧ t.module.power = .start ∧ t.module.failTicks = none
        ∧ t.startStatus.field 3 0 = (if warm ∧ (n = 3 ∨ n = 9) then n + 2 else n + 1)
        ∧ (t.fp 0).logCount = (s.fp 0).logCount + 1 ∧ t.mem = s.mem))
    ∧ (o.upTo < n → late = false → exec (.startComplete o) s = .next s)
    ∧ (∀ (c : Instr) (step : Nat),
        c = .startComplete o ∧ late = true ∧ step = n
          ∨ c = .startComplete o ∧ late = false ∧ n ≤ 2 ∧ 2 ≤ o.upTo ∧ o.fuseMapBad = true ∧ step = 2
          ∨ c = .startComplete o ∧ late = false ∧ n ≤ 3 ∧ 3 ≤ o.upTo ∧ (o.fuseMapBad = false ∨ n = 3)
            ∧ (∃ k, k < 4 ∧ (s.fp k).exhausted = false ∧ noImage k) ∧ step = 3
          ∨ c = .startComplete o ∧ late = false ∧ n ≤ 4 ∧ 4 ≤ o.upTo ∧ (o.fuseMapBad = false ∨ 3 ≤ n)
            ∧ (n ≤ 3 → ∀ k, k < 4 → ¬ noImage k) ∧ o.blockFailed = true ∧ warm = false ∧ step = 4
          ∨ c = .startTimeout ∧ late = true ∧ step = n
          ∨ (∃ k : FpId, c = .watchdog k ∧ (k = 0 ∨ 1 ≤ (s.fp k).wdInStart) ∧ (s.fp k).state = .running ∧ s.frozen (Master.fp k) = false
            ∧ reachedMs (s.fp k).wdElapsed (s.fld (Reg.fp.WD_PERIOD k) 15 0) = true) ∧ step = n →
      ∃ t, exec c s = .next t ∧ t.fld Reg.global.START_STATUS 6 5 = 2 ∧ t.startStatus.field 3 0 = 0
        ∧ t.fld Reg.global.START_STATUS 11 8 = step ∧ (∀ k, k < 4 → (t.fp k).state = .halted) ∧ t.mem = s.mem
        ∧ ((warm = true ∨ s.fld Reg.global.START_STATUS 21 20 < 2) → t.module.power = .start
            ∧ t.module.failTicks = some 0 ∧ t.module.locked = s.module.locked)
        ∧ (warm = false → 2 ≤ s.fld Reg.global.START_STATUS 21 20 → t.module.power = .stopped ∧ t.module.locked = true
            ∧ t.host.linkUp = false))

/-- Power and clocks: a power cycle leaves the module OFF with only its fuses and flash (R381), its memory empty (assumption 2: the model's
choice); in STOPPED the management port follows the input (R382); losing the 156.25 MHz reference is Fatal, losing the 100 MHz one takes the
PCIe link down (R457). The PCIe link and its resets: down drops the host's outstanding accesses, the tunnelled ones among them; a Function
Level Reset clears the negotiated interface and the MSI-X table (R439), and the host page with its FREEZE (assumption 62: the model's
reading); D3hot and D0 (R440); a message held for a vector goes once it is unmasked (R444); what the host enables on the link comes with it
(assumption 116: the model's reading). -/
def Obligations.PowerClocksAndPcie : Prop :=
  (∀ s : State,
      (∃ t, exec .powerCycle s = .next t ∧ t.module.power = .off ∧ t.module.mgmtOn = false ∧ t.fuses = s.fuses ∧ t.regs = []
        ∧ t.mem = [] ∧ t.fatal = false ∧ ∀ k, k < 4 → (t.fp k).slots = (s.fp k).slots)
      ∧ (s.module.power = .stopped → ∀ r, exec (.stoppedInputCrossing r) s = .next { s with module := { s.module with mgmtOn := r } })
      ∧ (s.module.ref156 = true → (s.up = true ∨ s.module.power = .start) → ∃ t, exec .refclk156Loss s = .next t ∧ t.fatal = true
          ∧ t.module.ref156 = false ∧ t.mem = s.mem ∧ t.crib = s.crib)
      ∧ (∃ t, exec .refclk100Loss s = .next t ∧ t.module.ref100 = false ∧ t.host.linkUp = false ∧ s.Frame [.module, .host] t))
  ∧ (∀ s : State,
      (∃ t, exec .dlDown s = .next t ∧ t.host.linkUp = false ∧ t.host.waiting = s.host.waiting.filter (fun x => x.reply.isSome)
          ∧ t.host.tun = [] ∧ (∀ x ∈ t.host.tunHeld, ∃ v, x = .ctrl v) ∧ (∀ x ∈ t.host.winHeld, ∃ v, x = .base v)
          ∧ t.host.out = s.host.out
          ∧ s.Frame [.host] t)
      ∧ (∀ (r : Fin 6) (w : Fin 5) (m : LinkMode), s.module.straps.pcieEn = true → (s.up = true ∨ s.module.power = .start) →
          ∃ t, exec (.pcieLinkUp r w m) s = .next t
          ∧ t.host.linkUp = true ∧ t.host.rate = r.val + 1 ∧ t.host.width = 2 ^ w.val ∧ t.host.flit = m.flit ∧ t.host.atsEn = m.ats
          ∧ t.host.priEn = m.pri ∧ t.module.ref100 = true ∧ s.Frame [.module, .host] t)
      ∧ (s.host.linkUp = true → exec .d3hotEntry s = .next { s with host := { s.host with d3hot := true } })
      ∧ (∃ t, exec .d0Return s = .next t ∧ t.host.d3hot = false ∧ s.Frame [.host] t
          ∧ (s.host.linkUp = true → ∀ v, v < 64 → bit s.host.pba.toNat v = true → s.host.msixMasked v = false →
              HostMsg.msix v ∈ t.host.out ∧ bit t.host.pba.toNat v = false))
      ∧ (∀ v : Fin 64, CMap.wf msixDefault s.host.msix = true → s.bellOpen = true → bit s.host.pba.toNat v = true →
          ∃ t, exec (.msixUnmask v) s = .next t ∧ t.host.msixMasked v = false ∧ bit t.host.pba.toNat v = false
            ∧ t.host.out = s.host.out ++ [HostMsg.msix v] ∧ s.Frame [.host] t)
      ∧ (s.host.linkUp = true → (∀ f, f < 32 → s.holdsHostTag f = false) → s.fatal = false → ∃ t, exec .functionLevelReset s = .next t
          ∧ t.host.accMaj = 0 ∧ t.host.reqMaj = 0 ∧ t.host.msix = [] ∧ t.host.d3hot = false ∧ t.host.linkUp = true
          ∧ (s.Canonical → (∀ a, pageOf a = .host → t.reg a = resetVal a) ∧ (∀ a, pageOf a ≠ .host → t.reg a = s.reg a))
          ∧ s.Frame [.regs, .host] t))

/-! ## The host -/

/-- The Memory window: a read gives the host the device's bytes, a write reaches memory, and an access past the window is none (R442); an
access to a hot stack, or behind an earlier one to its line, or without a tag, waits (R241, R268, R286; assumptions 82 and 99: the model's
readings), one that follows a WIN_BASE write that waits takes its turn behind it (R442), and one that has waited its time is aborted (R268).
A bad access is counted (R441, R449), and so is a read whose sluice entry is lost (R399); a configuration read is answered with Request
Retry Status until the module runs (R439; its row and its word are assumption 115: the model's choice). -/
def Obligations.MemoryWindow : Prop :=
  ∀ (acc : MemAccess) (s s2 : State),
    let a := s.windowAddr acc.offset
    let x : HostWait := ⟨a, acc, s.time, none⟩
    let pools := memPools a acc.size
    let g := s.useTags Master.host pools
    let c := exec (.memoryWindowAccess acc .good) s
    (acc.wellFormed = false → ∀ p, exec (.memoryWindowAccess acc p) s = .refused .illFormed)
    ∧ (acc.wellFormed = true → 2 ^ 36 < acc.offset + acc.size → ∀ p, exec (.memoryWindowAccess acc p) s = .fault .windowOverrun)
    ∧ (acc.wellFormed = true → acc.offset + acc.size ≤ 2 ^ 36 → s.host.linkUp = true → s.up = true → s.windowClosed = false →
      s.memTunnelled = false → s.host.accMaj = 1 → s.fatal = false → s.sluiceArmed .host = false →
      (s.host.winHeld = [] →
        (s.memWaits a acc.size = false → s.host.waiting.any (fun y => y.meets x) = false → s.tagsReady Master.host pools = true →
          (∀ o n d, acc = .read o n → g.memRead Master.host a n = (g, some d) →
            c = .next { g with host := { g.host with out := g.host.out ++ [.readData d] } } ∧ d = s.rawBytes a n)
          ∧ (∀ o d en, acc = .write o d en → g.memWriteMasked Master.host a d en = (s2, true) → c = .next s2
            ∧ (s.Canonical → (∀ i, i < d.length → s2.mem.rd (a + i) = if en.getD i true then d.getD i 0 else s.mem.rd (a + i))
                ∧ ∀ b, b < a ∨ a + d.length ≤ b → s2.mem.rd b = s.mem.rd b)))
        ∧ (s.memWaits a acc.size = true ∨ s.host.waiting.any (fun y => y.meets x) = true →
          c = .next { s with host := { s.host with waiting := s.host.waiting ++ [x] } })
        ∧ (s.memWaits a acc.size = false → s.host.waiting.any (fun y => y.meets x) = false → s.tagsReady Master.host pools = false →
          ∃ t, c = .next t ∧ t.host = { s.host with waiting := s.host.waiting ++ [x] } ∧ s.Frame [.host, .pools] t))
      ∧ (s.host.winHeld ≠ [] → c = .next { s with host := { s.host with winHeld := s.host.winHeld ++ [.access acc false] } })
      ∧ (∃ t, exec (.memoryWindowAccess acc .badData) s = .next t
        ∧ (acc.isRead = true → t.host.completerAborts = satInc 16 s.host.completerAborts) ∧ s.Frame reportParts t))
    ∧ (s.host.linkUp = true → s.up = true → s.host.d3hot = false →
      (∀ wr, wr = OtherAccess.read ∨ wr = .write → ∃ t, exec (.badAccess wr) s = .next t
        ∧ t.host.badAccess = satInc 16 s.host.badAccess
        ∧ t.host.out = (if wr = .write then s.host.out else s.host.out ++ [.unsupportedRequest]) ∧ s.Frame [.host] t)
      ∧ (∀ (r : BitVec 26) (v : RegData) (p : SluiceParity), r.toNat % (if v.hi.isSome then 8 else 4) ≠ 0 →
        exec (.registerWrite .host r ⟨v, p⟩) s
          = .next { s with host := { s.host with badAccess := satInc 16 s.host.badAccess } }))
    ∧ (s.host.linkUp = true →
      (s.up = false → exec (.badAccess .configRead) s = .next { s with host := { s.host with out := s.host.out ++ [.retryStatus] } })
      ∧ (s.up = true → ∃ t d, exec (.badAccess .configRead) s = .next t ∧ t.host.out = s.host.out ++ [.readData d] ∧ d.length = 4
          ∧ s.Frame [.host, .freeIx] t))
    ∧ (∀ x, s.host.waiting.find? (fun y => s.waitExpired y) = some x → x.reply = none → s.host.linkUp = true →
        ∃ t, exec .hostWindowAccessWaitExpiry s = .next t ∧ t.host.waiting = s.host.waiting.erase x
          ∧ t.host.out = (if x.acc.isRead then s.host.out ++ [HostMsg.completerAbort] else s.host.out)
          ∧ t.host.completerAborts = (if x.acc.isRead then satInc 16 s.host.completerAborts else s.host.completerAborts)
          ∧ s.Frame [.host] t)

/-- The tunnel at its head: a request leaves under the lowest free tag, as a packet for the node of TUN_CTRL on the port of its route, or
straight on the direct port (R344, R345), and one without a route fails with LAST_STATUS 1; one that finds 64 outstanding, or the route
table in memory that waits, waits (R268, R345); while the tunnel aborts a read is aborted at once; a reply that does not come within TUN_TMO
fails with LAST_STATUS 7; clearing ERR opens the tunnel (R347). TUN_CTRL takes effect once nothing is outstanding (R346). -/
def Obligations.TunnelHead : Prop :=
  ∀ (w : Writer) (s : State) (op : TunnelOp) (r : TunReq),
    let c := exec (.tunnelRequest ⟨op, .good⟩) s
    let wait := { s with host := { s.host with tunHeld := [.req r] } }
    let route := if s.tunDirect then (s, some (s.fld Reg.global.TUN_CTRL 23 19)) else s.routeBy Master.host s.tunMap s.tunNode
    (op.wellFormed = false → ∀ p, exec (.tunnelRequest ⟨op, p⟩) s = .refused .illFormed)
    ∧ (op.wellFormed = true → s.host.linkUp = true → s.up = true → s.windowClosed = false → s.sluiceArmed .host = false →
      s.tunReqs op = [r] → s.host.tunHeld = [] → s.host.winHeld = [] →
      (s.host.tunErr = true → c = .next (s.tunRefuse r))
      ∧ (s.host.tunErr = false → 64 ≤ s.host.tun.length ∨ s.tunDirect = false ∧ s.routeWaits s.tunMap s.tunNode = true → c = .next wait)
      ∧ (s.host.tunErr = false → s.host.tun.length < 64 → s.tunDirect = true ∨ s.routeWaits s.tunMap s.tunNode = false →
        (∀ q, route.2 = some q → ∃ t, c = .next t
            ∧ t.host.tun = s.host.tun ++ [⟨s.tunTag, r.isRead, r.ofMem, r.take, s.time⟩]
            ∧ (∀ x ∈ s.host.tun, x.tag ≠ s.tunTag) ∧ (∀ n, n < s.tunTag → ∃ x ∈ s.host.tun, x.tag = n)
            ∧ (q < 24 → ∃ l, (t.port q).txPk[3]?.getD [] = l ++ [mkPacket 3 r.kind 0 false route.1.moduleId
                (if s.tunDirect then 16383 else s.tunNode) 0 s.tunTag (r.addr % 2 ^ 42 + 2 ^ 42 * (r.rdlen % 64)) r.data])
            ∧ route.1.Frame [.ports, .host] t)
        ∧ (route.2 = none → ∃ t, c = .next t ∧ t.host.tun = s.host.tun ∧ t.host.tunErr = true ∧ t.host.tunLast = 1
            ∧ route.1.Frame reportParts t)))
    ∧ (∀ (tag : Fin 64) x, s.host.tun.find? (fun y => decide (y.tag = tag.val)) = some x → s.host.tunHeld = [] →
        reachedUs (s.time - x.since) (s.fld Reg.global.TUN_TMO 23 0) = true → ∃ t, exec (.tunTmo tag) s = .next t
          ∧ t.host.tun = s.host.tun.erase x ∧ t.host.tunErr = true ∧ t.host.tunLast = 7 ∧ s.Frame reportParts t)
    ∧ (s.takesClean w Reg.global.TUN_STATUS = true →
        exec (.tunnelErrClear w) s = .next { s with host := { s.host with tunErr := false } })
    ∧ (∀ v, s.takesClean w Reg.global.TUN_CTRL = true →
        (s.host.tun = [] → s.host.tunHeld = [] → exec (.tunCtrl w v) s = .next (s.setReg Reg.global.TUN_CTRL (v &&& 0xFFFFFF#32)))
        ∧ (s.host.tun ≠ [] ∨ s.host.tunHeld ≠ [] →
          exec (.tunCtrl w v) s = .next { s with host := { s.host with tunHeld := s.host.tunHeld ++ [.ctrl v] } }))

/-- Reading the low half of a wide counter latches its high half, and reading SNAP_DATA moves to the next word (R43, R296, R355, R394); the
host's read is answered with the register's value, one of 8 bytes with both words in ascending address, and an unaligned one is a bad access
(R441); the management port's is answered with a completion that holds the value (R451), and a processor takes it. -/
def Obligations.ReadsWithEffect : Prop :=
  ∀ (w : Writer) (e : EngId) (f : FlumeId) (b : BarnId) (wide : Bool) (s : State), s.up = true →
    (∀ (c : Instr) (a : Nat), (c, a) ∈ [(Instr.workBeatsLo w ⟨e, .good, wide⟩, Reg.engine.WORK_BEATS_LO e),
        (.paceBeatsLo w ⟨e, .good, wide⟩, Reg.engine.PACE_BEATS_LO e), (.doneLo w ⟨f, .good, wide⟩, Reg.flume.DONE_LO f),
        (.flBytesLo w ⟨f, .good, wide⟩, Reg.flume.FL_BYTES_LO f), (.glTimeLo ⟨w, .good, wide⟩, Reg.gleaner.GL_TIME_LO),
        (.snapDataRead w ⟨b, .good, wide⟩, Reg.barn.SNAP_DATA b)] → s.sluiceArmed w = false →
      let t := s.readEffect a
      (w = .host → s.host.linkUp = true → s.host.d3hot = false → s.regTunnelled a = false →
        (a % (if wide then 8 else 4) = 0 → ∃ d q, exec c s = .next q ∧ q.host = { s.host with out := s.host.out ++ [.readData d] }
          ∧ (s.frozen Master.host = true → d = List.replicate (if wide then 8 else 4) 0xFF ∧ s.Frame [.host] q)
          ∧ (s.frozen Master.host = false → ((if wide then t.readEffect (a + 4) else t).Frame [.host] q)
            ∧ d = leBytes 4 (s.readReg a).toNat ++ (if wide then leBytes 4 (t.readReg (a + 4)).toNat else [])))
        ∧ (a % (if wide then 8 else 4) ≠ 0 → exec c s = .next { s with host := { s.host with
            badAccess := satInc 16 s.host.badAccess, out := s.host.out ++ [.unsupportedRequest] } }))
      ∧ (w = .mgmt → s.module.mgmtOn = true → s.frozen Master.mgmt = false → exec c s = .next (t.answer 0 [s.readReg a]))
      ∧ (∀ k : FpId, w = .fp k → s.frozen (Master.fp k) = false → (s.fp k).state = .running → exec c s = .next t))
    ∧ (s.present e = true →
      s.readEffect (Reg.engine.WORK_BEATS_LO e)
        = s.setReg (Reg.engine.WORK_BEATS_HI e) (BitVec.ofNat 32 ((s.engine e).workBeats.toNat / 2 ^ 32))
      ∧ s.readEffect (Reg.engine.PACE_BEATS_LO e)
        = s.setReg (Reg.engine.PACE_BEATS_HI e) (BitVec.ofNat 32 ((s.engine e).paceBeats.toNat / 2 ^ 32))
      ∧ s.readReg (Reg.engine.WORK_BEATS_LO e) = BitVec.ofNat 32 (s.engine e).workBeats.toNat
      ∧ s.readReg (Reg.engine.PACE_BEATS_LO e) = BitVec.ofNat 32 (s.engine e).paceBeats.toNat)
    ∧ (∀ t : Task, (s.flume f).cur = some t → s.readEffect (Reg.flume.DONE_LO f)
        = s.setReg (Reg.flume.DONE_HI f) (BitVec.ofNat 32 ((t.prefixDone + t.ackedAhead.length) / 2 ^ 32 % 65536)))
    ∧ s.readEffect (Reg.flume.FL_BYTES_LO f)
      = s.setReg (Reg.flume.FL_BYTES_HI f) (BitVec.ofNat 32 ((s.flume f).bytes.toNat / 2 ^ 32))
    ∧ s.readEffect Reg.gleaner.GL_TIME_LO = s.setReg Reg.gleaner.GL_TIME_HI (BitVec.ofNat 32 (s.time / 2 ^ 32))
    ∧ s.readEffect (Reg.barn.SNAP_DATA b)
      = s.setFld (Reg.barn.SNAP_CTRL b) 4 0 (s.fld (Reg.barn.SNAP_CTRL b) 4 0 + 1)

/-! ## Register writes -/

/-- An address that the register window map assigns to no page reads 0 in every state and ignores writes: a write changes nothing, so it
raises no error and freezes no master (R7). The tunnel's accesses are another module's (R344), an entry that injection spoils is none
(R406), and a host's write that is not aligned is a bad access (R441). -/
def Obligations.UnassignedReadsZero : Prop :=
  ∀ (w : Writer) (a : BitVec 26) (v : RegData) (s : State), pageOf a.toNat = .unassigned →
    s.readReg a.toNat = 0 ∧ s.readEffect a.toNat = s
    ∧ (s.frozen Master.mgmt = false → s.mgmtWord a.toNat = (0, s))
    ∧ (s.sluiceArmed w = false → (w = .host → s.tunOffset a.toNat = none ∧ a.toNat % (if v.hi.isSome then 8 else 4) = 0) →
        (v.hi.isSome = true → pageOf (a.toNat + 4) = .unassigned) → exec (.registerWrite w a ⟨v, .good⟩) s = .next s)

/-- Writes of single registers: the fields take the value, and a value out of range is refused with FORMAT and changes nothing of it (R269,
R386, R435, R447, R468, R477); that it freezes nobody is assumption 56: the model's reading. WIN_BASE waits for the Memory window accesses
before it (R442). A user draw gives the block of its key and seed, and with a seed register of bad parity it gives zeros and the step aborts
(R122, R123; which registers a draw checks is assumption 102: the model's reading). A write to a register of a Weir port or a Mill adder
(plain fields) sets its RW bits, its RWL bits until LOCK, clears the W1C bits written with 1, and leaves every other bit and register (R15,
R468). A write to an absent engine's page freezes its writer (R467). -/
def Obligations.RegisterWrites : Prop :=
  (∀ (w : Writer) (k : StackId) (i : FpId) (v : Word) (s : State),
      let refused (c : Instr) (pg : Page) (a : Nat) : Prop :=
        let err := pg.base + Reg.header.ERR_STATUS
        ∃ t, exec c s = .next t ∧ t.reg a = s.reg a ∧ ((s.reg err).field 7 0 = 0 → (t.reg err).field 7 0 = Cause.FORMAT)
          ∧ (∀ m, m < 64 → t.frozen m = s.frozen m) ∧ s.Frame reportParts t
      (∀ n : BitVec 4, s.takesClean w (Reg.global.page + Reg.header.VERSION) = true → exec (.reqMaj w n) s = .next (
        if s.host.accMaj = 1 then s
        else { s with host := { s.host with reqMaj := n.toNat, accMaj := if n.toNat = 1 then 1 else 0 } }))
      ∧ (s.takesClean w Reg.global.LOCK = true → exec (.lock w) s = .next (
        if w ∈ [.host, .mgmt, .fp 0] then s.setFld Reg.global.LOCK 1 1 1 else s))
      ∧ (s.takesClean w Reg.host.WIN_BASE = true →
        (s.windowBusy = false → s.host.winHeld = [] → exec (.winBase w v) s = .next (s.setReg Reg.host.WIN_BASE (v &&& 0x3F#32)))
        ∧ (s.windowBusy = true ∨ s.host.winHeld ≠ [] →
          exec (.winBase w v) s = .next { s with host := { s.host with winHeld := s.host.winHeld ++ [.base v] } }))
      ∧ (s.takesClean w Reg.tally.TALLY_TIMEOUT = true →
        (v.field 15 0 ≠ 0 → exec (.tallyTimeoutWrite w v) s = .next (s.setReg Reg.tally.TALLY_TIMEOUT (v &&& 0xFFFF#32)))
        ∧ (v.field 15 0 = 0 → s.Canonical → refused (.tallyTimeoutWrite w v) .tally Reg.tally.TALLY_TIMEOUT))
      ∧ (s.takesClean w (Reg.fp.WD_PERIOD i) = true →
        (v.field 15 0 ≠ 0 → exec (.wdPeriod w i v) s = .next (s.setReg (Reg.fp.WD_PERIOD i) (v &&& 0xFFFF#32)))
        ∧ (v.field 15 0 = 0 → s.Canonical → refused (.wdPeriod w i v) (.fp i) (Reg.fp.WD_PERIOD i)))
      ∧ (s.takesClean w (Reg.ctl.THERM_CFG k) = true →
        (1 ≤ v.field 22 16 → v.field 22 16 ≤ 100 →
          exec (.thermCfg w k v) s = .next (s.setReg (Reg.ctl.THERM_CFG k) (v &&& 0x7FFFFF)))
        ∧ (v.field 22 16 = 0 ∨ 100 < v.field 22 16 → s.Canonical → refused (.thermCfg w k v) (.ctl k) (Reg.ctl.THERM_CFG k)))
      ∧ (16 ≤ v.field 8 0 → v.field 8 0 ≤ 256 →
        (s.takesClean w Reg.gauge.BO_PACE = true → exec (.boPace w v) s = .next (s.setReg Reg.gauge.BO_PACE (v &&& 0x1FF#32)))
        ∧ (s.takesClean w Reg.gauge.FW_PACE = true → ∃ t, exec (.fwPace w v) s = .next t
            ∧ t.regs = (s.setReg Reg.gauge.FW_PACE (v &&& 0x1FF#32)).regs
            ∧ t.gauge.fwNative = (if w = .fp 3 then false else s.gauge.fwNative)
            ∧ t.gauge.fwFallback = s.gauge.fwFallback ∧ s.Frame [.regs, .gauge] t))
      ∧ (v.field 8 0 < 16 ∨ 256 < v.field 8 0 → s.Canonical →
        (s.takesClean w Reg.gauge.FW_PACE = true → refused (.fwPace w v) .gauge Reg.gauge.FW_PACE)
        ∧ (s.takesClean w Reg.gauge.BO_PACE = true → refused (.boPace w v) .gauge Reg.gauge.BO_PACE))
      ∧ (s.takesClean w Reg.spring.USER_CTRL = true → s.Canonical → ∀ r, ∃ t, exec (.userCtrlGo w ⟨v, r⟩) s = .next t
          ∧ t.mem = s.mem ∧ t.crib = s.crib ∧ t.gran = s.gran ∧
          let q := springBlock (s.seed (bit v.toNat 1)) ⟨s.reg Reg.spring.USER_KEY0, s.reg Reg.spring.USER_KEY1,
            s.reg Reg.spring.USER_KEY2, s.reg Reg.spring.USER_KEY3⟩
          ((s.seedUpset r).drawFault (bit v.toNat 1) false = none → t.reg Reg.spring.USER_OUT0 = q.w0 ∧ t.reg Reg.spring.USER_OUT1 = q.w1
            ∧ t.reg Reg.spring.USER_OUT2 = q.w2 ∧ t.reg Reg.spring.USER_OUT3 = q.w3 ∧ s.Frame [.regs, .springBad] t)
          ∧ ((s.seedUpset r).drawFault (bit v.toNat 1) false ≠ none → t.reg Reg.spring.USER_OUT0 = 0 ∧ t.reg Reg.spring.USER_OUT1 = 0
            ∧ t.reg Reg.spring.USER_OUT2 = 0 ∧ t.reg Reg.spring.USER_OUT3 = 0
            ∧ ∀ j : JobId, s.jobLive j = true → (∀ i, (s.job i).passed = false) → (t.job j).aborted = true)))
  ∧ (∀ (w : Writer) (a : BitVec 26) (v : Word) (s : State),
      (∀ d i, s.Canonical → a.toNat % 4 = 0 → s.takesClean w a.toNat = true → (w = .host → s.tunOffset a.toNat = none) →
        ((∃ p, pageOf a.toNat = .port p) ∨ (∃ k, pageOf a.toNat = .mad k)) →
        0x40 ≤ pageOffset a.toNat → regDef? a.toNat = some d → d.rws = 0 → i < 32 →
        exec (.registerWrite w a ⟨⟨v, none⟩, .good⟩) s = .next (s.plainWrite a.toNat d v)
        ∧ bit ((s.plainWrite a.toNat d v).reg a.toNat).toNat i
            = ((if bit d.rw.toNat i || (bit d.rwl.toNat i && !s.regBit Reg.global.LOCK 1) then bit v.toNat i else s.regBit a.toNat i)
                && !(bit v.toNat i && bit d.w1c.toNat i))
        ∧ (∀ r, r ≠ a.toNat → (s.plainWrite a.toNat d v).reg r = s.reg r))
      ∧ (s.Canonical → s.takesClean w a.toNat = true → s.absentPage a.toNat = true → ∃ t, exec (.absentPageWrite w a v) s = .next t
          ∧ t.frozen w.id = true ∧ s.Frame reportParts t))

/-- A Granary window write by a master that may lands in banks that are not live, and its words read back (R188); in a live bank nothing of
it lands, and the writer freezes (R189); so does a master that may not write (R188). Under a slice of the bank it waits (R228). Staged
snapshot words are kept and counted, and LOAD makes them the restart snapshot (R355). -/
def Obligations.GranaryAndSnapshotWrites : Prop :=
  ∀ (w : Writer) (a : BitVec 26) (d : List Byte) (b : BarnId) (v : Word) (s : State),
    let c := exec (.granaryWindowWrite w a ⟨d, .good⟩) s
    let tested := ∃ i q, i < d.length ∧ granSite (a.toNat + i) = some q ∧ s.sliceHoldsGranary q.1 q.2 = true
    (granaryDataOk d = false → ∀ p, exec (.granaryWindowWrite w a ⟨d, p⟩) s = .refused .illFormed)
    ∧ (granaryDataOk d = true → s.takesClean w a.toNat = true → inGranary a.toNat = true → a.toNat % 4 = 0 →
      (w ∈ [.host, .mgmt, .fp 0] →
        ((∀ i, i < d.length → s.granLive (a.toNat + i) = false) →
          (¬ tested → ∃ t, c = .next t ∧ s.Frame [.gran, .granBad] t
            ∧ (s.Canonical → ∀ j, 4 * j + 4 ≤ d.length → inGranary (a.toNat + 4 * j) = true →
                t.readReg (a.toNat + 4 * j) = wordAt d (4 * j)))
          ∧ (tested → c = .next { s with granWaits := s.granWaits ++ [⟨w, a.toNat, d⟩] }))
        ∧ (s.Canonical → (∃ i, i < d.length ∧ s.granLive (a.toNat + i) = true) →
          ∃ t, c = .next t ∧ t.frozen w.id = true ∧ s.Frame reportParts t))
      ∧ (w ∉ [.host, .mgmt, .fp 0] → s.Canonical → ∃ t, c = .next t ∧ t.frozen w.id = true ∧ s.Frame reportParts t))
    ∧ ((s.barn b).phase = .idle →
      (s.takesClean w (Reg.barn.SNAP_DATA b) = true → s.snapWordOk b (s.fld (Reg.barn.SNAP_CTRL b) 4 0) v = true →
        exec (.snapDataWrite w b v) s = .next ((s.setBarn b
          { s.barn b with staging := (s.barn b).staging.wr (s.fld (Reg.barn.SNAP_CTRL b) 4 0) v }).setFld (Reg.barn.SNAP_CTRL b) 4 0
            (s.fld (Reg.barn.SNAP_CTRL b) 4 0 + 1)))
      ∧ (s.takesClean w (Reg.barn.SNAP_CTRL b) = true → (∀ i, i < 32 → s.snapWordOk b i ((s.barn b).staging.rd i) = true) →
        ∃ t, exec (.load w b) s = .next t ∧ (t.barn b).pendingRestart = true ∧ (t.barn b).suppress = 0
          ∧ (t.barn b).snap.pc = BitVec.ofNat 13 ((s.barn b).staging.rd 0).toNat
          ∧ (t.barn b).snap.active = (s.barn b).active ∧ (t.barn b).snap.ccBank = false ∧ (∀ k, k ≠ b.val → t.barn k = s.barn k)
          ∧ s.Frame [.barns, .freeIx] t))

/-! ## Management and test ports -/

/-- The management port: words read and written in ascending address with completion 0, a malformed request counted with completion 1 (R451;
what is malformed is assumption 69: the model's reading). PLDM readings, starts, releases and endpoint IDs are answered (R450, R452), the
certificate too (R424; assumption 90: the model's choice of its message). A packet with a bad header is discarded and counted, SMB_SPEED
shows the clock of the last one by SMBus (R480), none comes by PCIe while its link is down (R450), and a port without power answers nothing.
The test access port: IDCODE shows the part's word, BYPASS one bit, SAMPLE/PRELOAD takes the cells, and EXTEST drives them only in the test
mode, in TEST or STOPPED (R458; the length of the boundary register is the command's, assumption 68: the model's choice). An event that has
left the longest window leaves its list, the others stay (assumption 70: the model's reading), and no register's value changes (R483). -/
def Obligations.ManagementAndTestPorts : Prop :=
  (∀ (off : BitVec 32) (n : Nat) (ws : List Word) (via : MctpBinding) (s0 : State), s0.module.mgmtOn = true →
      (via = .pcieVdm → s0.host.linkUp = true) →
      let s : State := match via with
        | .smbus v => { s0 with mgmt := { s0.mgmt with smbSpeed := v } }
        | .pcieVdm => s0
      let bad : State := { s with mgmt := { s.mgmt with malformed := s.mgmt.malformed + 1, out := s.mgmt.out ++ [.completion 1 []] } }
      (mctpOk off.toNat n = false → ∀ p, exec (.mctpRead ⟨off, via, true⟩ ⟨n, p⟩) s0 = .next bad)
      ∧ (mctpOk off.toNat ws.length = false → ∀ p, exec (.mctpWrite ⟨off, via, true⟩ ⟨ws, p⟩) s0 = .next bad)
      ∧ (∀ p, exec (.mctpRead ⟨off, via, false⟩ ⟨n, p⟩) s0
          = .next { s with mgmt := { s.mgmt with dropped := satInc 16 s.mgmt.dropped } })
      ∧ (s0.sluiceArmed .mgmt = false →
        (mctpOk off.toNat n = true →
          exec (.mctpRead ⟨off, via, true⟩ ⟨n, .good⟩) s0 = .next ((s.mgmtWords off.toNat n).2.answer 0 (s.mgmtWords off.toNat n).1))
        ∧ (s.up = true → s.frozen Master.mgmt = false → s.mgmtWord off.toNat = (s.readReg off.toNat, s.readEffect off.toNat))
        ∧ (mctpOk off.toNat 1 = true → inGranary off.toNat = false → ∀ v, exec (.mctpWrite ⟨off, via, true⟩ ⟨[v], .good⟩) s0
          = .next ((if s.takesWrite .mgmt off.toNat then s.writeReg .mgmt off.toNat v else s).answer 0 []))
        ∧ (mctpOk off.toNat ws.length = true → ∃ t, exec (.mctpWrite ⟨off, via, true⟩ ⟨ws, .badData⟩) s0 = .next t
          ∧ s.Frame reportParts t))
      ∧ (∀ x, exec (.pldmSensorRead ⟨x, via, true⟩) s0 = .next { s with mgmt := { s.mgmt with
          out := s.mgmt.out ++ [if x = .certificate then .certificate s.module.cert else .sensor (s.sensorValue x)] } })
      ∧ (∀ c : Bool, s0.takesClean .mgmt Reg.global.START_CTRL = true →
        exec (.pldmModuleStart ⟨c, via, true⟩) s0 = .next ((s.requestStart (!c)).answer 0 []))
      ∧ (∀ id : BitVec 6, s0.takesClean .mgmt ((masterPage id.toNat).base + Reg.header.FREEZE) = true →
        exec (.pldmMasterRelease ⟨id, via, true⟩) s0 = .next ((s.releaseBy .mgmt id.toNat).answer 0 [])
        ∧ (s.Canonical → masterPage id.toNat ≠ .unassigned → (s.releaseBy .mgmt id.toNat).frozen id.toNat = false))
      ∧ (∀ eid p, s0.takesClean .mgmt Reg.mgmt.MGMT_EVENT = true → s.Canonical →
          ∃ t, exec (.setEventReceiver ⟨eid, via, true⟩ p) s0 = .next t
          ∧ t.fld Reg.mgmt.MGMT_EVENT 7 0 = eid.toNat ∧ t.fld Reg.mgmt.MGMT_EVENT 8 8 = b2n p ∧ s.Frame [.regs, .mgmt] t)
      ∧ (∀ eid, ∃ t, exec (.endpointIdAssign via eid) s0 = .next t ∧ s.Frame [.mgmt] t
          ∧ (via = .pcieVdm → t.mgmt.pcieEid = eid ∧ t.mgmt.smbEid = s.mgmt.smbEid)
          ∧ (via ≠ .pcieVdm → t.mgmt.smbEid = eid ∧ t.mgmt.pcieEid = s.mgmt.pcieEid)
          ∧ t.mgmt.out = s.mgmt.out ++ [.completion 0 []]))
  ∧ (∀ s : State,
      (∀ via, s.module.mgmtOn = false ∨ via = .pcieVdm ∧ s.host.linkUp = false →
        (∀ off n p whole, exec (.mctpRead ⟨off, via, whole⟩ ⟨n, p⟩) s = .next s) ∧ ∀ eid, exec (.endpointIdAssign via eid) s = .next s)
      ∧ (s.tapOn = true →
        (∃ t, exec .idcode s = .next t ∧ t.tap.instr = .idcode ∧ t.tap.driving = false ∧ t.tap.shown.length = 32
          ∧ (∀ i, i < 32 → t.tap.shown.getD i false = bit 0x1D1A6F3B i) ∧ s.Frame [.tap] t)
        ∧ (∃ t, exec .bypass s = .next t ∧ t.tap.instr = .bypass ∧ t.tap.driving = false ∧ t.tap.shown.length = 1 ∧ s.Frame [.tap] t)
        ∧ (∀ l, ∃ t, exec (.samplePreload l) s = .next t ∧ t.tap.instr = .sample ∧ t.tap.cells = l ∧ t.tap.driving = false
            ∧ t.tap.shown.length = l.length ∧ s.Frame [.tap, .freeIx] t)
        ∧ (∀ c, c ∈ [Instr.extest, .extestPulse] → ∃ t, exec c s = .next t ∧ t.tap.cells = s.tap.cells
            ∧ (t.tap.driving = true ↔ s.module.straps.testMode = true ∧ (s.module.power = .test ∨ s.module.power = .stopped))
            ∧ s.Frame [.tap, .freeIx] t))
      ∧ (∀ w, ∃ t, exec (.eventLeavesWindow w) s = .next t ∧ (∀ a, t.readReg a = s.readReg a)
          ∧ s.Frame [.engines, .memStacks, .stackCores, .ports, .gauge, .fps] t ∧
          let stays (us : Nat) (old new : List Nat) : Prop := ∀ x, x ∈ new ↔ x ∈ old ∧ (s.time - x) * 64 ≤ us * 10000
          let ms := (2 ^ 24 - 1) * 1000
          (∀ e : EngId, w = .chk e → stays ms (s.engine e).chkTimes (t.engine e).chkTimes)
          ∧ (∀ (k : StackId) (row n : Nat), w = .ce k row → ∀ ts, (s.stack k).ceRows[n]? = some (row, ts) →
              ∃ us, (t.stack k).ceRows[n]? = some (row, us) ∧ stays ((2 ^ 24 - 1) * 1000000) ts us)
          ∧ (∀ (p : PortId) (n : Fin 4), w = .lane p n →
              stays ms ((s.port p).laneFails[n.val]?.getD []) ((t.port p).laneFails[n.val]?.getD []))
          ∧ (∀ p : PortId, w = .csum p → stays ms (s.port p).csumTimes (t.port p).csumTimes)
          ∧ (w = .brownout → stays ms s.gauge.boTimes t.gauge.boTimes)
          ∧ (∀ k : FpId, w = .restart k → stays ms (s.fp k).restartTimes (t.fp k).restartTimes)))

/-! ## The whole machine -/

/-- At reset every sparse map is canonical; the module stands in START of its first cold start, every unit idle and unfrozen, STEP 0, the
Tally idle with no owner (assumption 1 where the rules give no value). -/
def Obligations.ResetState : Prop :=
  State.reset.Canonical ∧ State.reset.module.power = .start ∧ State.reset.fatal = false ∧ State.reset.tally.state = .idle
    ∧ State.reset.tally.owner = Master.none ∧ (∀ m, State.reset.frozen m = false) ∧ State.reset.reg Reg.spring.STEP = 0
    ∧ State.reset.reg Reg.global.AVAIL_EPOCH = 0 ∧ (∀ b, b < 8 → (State.reset.barn b).phase = .idle)
    ∧ (∀ f, f < 32 → (State.reset.flume f).state = .idle) ∧ (∀ p, p < 24 → (State.reset.port p).link = .down)
    ∧ (∀ k, k < 4 → (State.reset.fp k).state = .halted) ∧ State.reset.pending = []

/-- Every step keeps every sparse map of the state in canonical form (the model's own form of a memory, assumption 2). -/
def Obligations.StepKeepsCanonical : Prop :=
  ∀ s t : State, s.Canonical → step s = .next t → t.Canonical

/-- No step lowers the fused security version, replaces a fused identity seed, or changes any other fuse (R422, R424). -/
def Obligations.FusesOnlyRise : Prop :=
  ∀ s t : State, step s = .next t →
    s.fuses.svn ≤ t.fuses.svn ∧ (s.fuses.idSeed.isSome = true → t.fuses.idSeed = s.fuses.idSeed)
      ∧ t.fuses = { s.fuses with svn := t.fuses.svn, idSeed := t.fuses.idSeed }
end

