-- ==== Sys2Proof/Laws/Maps.lean ====
section
/-! SUPPORT. The laws of the sparse maps: a write is read back, it leaves every other key alone, and it keeps the canonical form;
the same for byte strings. -/

namespace Sys2Proof

variable {w : Nat} {d : Nat → BitVec w}

theorem CMap.wfFrom_cons {lo k : Nat} {v : BitVec w} {m : CMap w} :
    CMap.wfFrom d lo ((k, v) :: m) = true ↔ lo ≤ k ∧ v ≠ d k ∧ CMap.wfFrom d (k + 1) m = true := by
  simp [CMap.wfFrom, and_assoc]

theorem CMap.wfFrom_mono {lo lo' : Nat} (h : lo ≤ lo') {m : CMap w} (hm : CMap.wfFrom d lo' m = true) :
    CMap.wfFrom d lo m = true := by
  cases m with
  | nil => rfl
  | cons p m =>
    obtain ⟨k, v⟩ := p
    rw [CMap.wfFrom_cons] at hm ⊢
    exact ⟨h.trans hm.1, hm.2⟩

/-- Below every listed key a canonical map reads as its default. -/
theorem CMap.get_below {lo k : Nat} (hk : k < lo) {m : CMap w} (hm : CMap.wfFrom d lo m = true) : CMap.get d m k = d k := by
  cases m with
  | nil => rfl
  | cons p m =>
    obtain ⟨j, v⟩ := p
    rw [CMap.wfFrom_cons] at hm
    have h1 : ¬ j = k := by omega
    have h2 : k < j := by omega
    simp [CMap.get, h1, h2]

theorem CMap.wfFrom_put {lo k : Nat} (hk : lo ≤ k) (v : BitVec w) {m : CMap w} (hm : CMap.wfFrom d (k + 1) m = true) :
    CMap.wfFrom d lo (CMap.put d k v m) = true := by
  unfold CMap.put
  split
  · exact CMap.wfFrom_mono (by omega) hm
  · exact CMap.wfFrom_cons.2 ⟨hk, ‹_›, hm⟩

theorem CMap.wfFrom_set {lo k : Nat} (hk : lo ≤ k) (v : BitVec w) {m : CMap w} (hm : CMap.wfFrom d lo m = true) :
    CMap.wfFrom d lo (CMap.set d m k v) = true := by
  induction m generalizing lo with
  | nil => exact CMap.wfFrom_put hk v rfl
  | cons p m ih =>
    obtain ⟨j, u⟩ := p
    rw [CMap.wfFrom_cons] at hm
    simp only [CMap.set]
    split
    · exact CMap.wfFrom_put hk v (CMap.wfFrom_cons.2 ⟨by omega, hm.2⟩)
    · split
      · subst_vars
        exact CMap.wfFrom_put hk v hm.2.2
      · exact CMap.wfFrom_cons.2 ⟨hm.1, hm.2.1, ih (by omega) hm.2.2⟩

/-- A write keeps the canonical form. -/
theorem CMap.wf_set {m : CMap w} (hm : CMap.wf d m = true) (k : Nat) (v : BitVec w) : CMap.wf d (CMap.set d m k v) = true :=
  CMap.wfFrom_set (Nat.zero_le k) v hm

theorem CMap.get_put_same (k : Nat) (v : BitVec w) {m : CMap w} (hm : CMap.wfFrom d (k + 1) m = true) :
    CMap.get d (CMap.put d k v m) k = v := by
  unfold CMap.put
  split
  · rw [CMap.get_below (Nat.lt_succ_self k) hm, ‹v = d k›]
  · simp [CMap.get]

theorem CMap.get_set_same_from {lo : Nat} {m : CMap w} (hm : CMap.wfFrom d lo m = true) (k : Nat) (v : BitVec w) :
    CMap.get d (CMap.set d m k v) k = v := by
  induction m generalizing lo with
  | nil => exact CMap.get_put_same k v rfl
  | cons p m ih =>
    obtain ⟨j, u⟩ := p
    rw [CMap.wfFrom_cons] at hm
    simp only [CMap.set]
    split
    · exact CMap.get_put_same k v (CMap.wfFrom_cons.2 ⟨by omega, hm.2⟩)
    · split
      · subst_vars
        exact CMap.get_put_same _ v hm.2.2
      · have h1 : ¬ j = k := by omega
        have h2 : ¬ k < j := by omega
        simpa [CMap.get, h1, h2] using ih hm.2.2

/-- A written key reads as the value written. -/
theorem CMap.get_set_same {m : CMap w} (hm : CMap.wf d m = true) (k : Nat) (v : BitVec w) :
    CMap.get d (CMap.set d m k v) k = v := CMap.get_set_same_from hm k v

theorem CMap.get_put_other {j k : Nat} (h : j ≠ k) (v : BitVec w) {m : CMap w} (hm : CMap.wfFrom d (k + 1) m = true) :
    CMap.get d (CMap.put d k v m) j = CMap.get d m j := by
  unfold CMap.put
  split
  · rfl
  · by_cases hj : j < k
    · rw [CMap.get_below (by omega : j < k + 1) hm]
      simp [CMap.get, hj, h.symm]
    · simp [CMap.get, hj, h.symm]

theorem CMap.get_set_other_from {lo : Nat} {m : CMap w} (hm : CMap.wfFrom d lo m = true) {j k : Nat} (h : j ≠ k) (v : BitVec w) :
    CMap.get d (CMap.set d m k v) j = CMap.get d m j := by
  induction m generalizing lo with
  | nil => exact CMap.get_put_other h v rfl
  | cons p m ih =>
    obtain ⟨i, u⟩ := p
    rw [CMap.wfFrom_cons] at hm
    simp only [CMap.set]
    split
    · exact CMap.get_put_other h v (CMap.wfFrom_cons.2 ⟨by omega, hm.2⟩)
    · split
      · subst_vars
        rw [CMap.get_put_other h v hm.2.2]
        by_cases hj : j < i
        · rw [CMap.get_below (by omega : j < i + 1) hm.2.2]
          simp [CMap.get, hj, h.symm]
        · simp [CMap.get, hj, h.symm]
      · simp only [CMap.get]
        split
        · rfl
        · split
          · rfl
          · exact ih hm.2.2

/-- A write leaves every other key alone. -/
theorem CMap.get_set_other {m : CMap w} (hm : CMap.wf d m = true) {j k : Nat} (h : j ≠ k) (v : BitVec w) :
    CMap.get d (CMap.set d m k v) j = CMap.get d m j := CMap.get_set_other_from hm h v

/-! ## Memories whose unlisted keys read zero -/

theorem CMap.wf_wr {m : CMap w} (hm : Memory.wf m = true) (k : Nat) (v : BitVec w) : Memory.wf (m.wr k v) = true :=
  CMap.wf_set hm k v

theorem CMap.rd_wr_same {m : CMap w} (hm : Memory.wf m = true) (k : Nat) (v : BitVec w) : (m.wr k v).rd k = v :=
  CMap.get_set_same hm k v

theorem CMap.rd_wr_other {m : CMap w} (hm : Memory.wf m = true) {j k : Nat} (h : j ≠ k) (v : BitVec w) :
    (m.wr k v).rd j = m.rd j := CMap.get_set_other hm h v

/-- A byte string written keeps the canonical form. -/
theorem CMap.wf_wrBytes (bs : List Byte) {m : CMap 8} (hm : Memory.wf m = true) (a : Nat) : Memory.wf (m.wrBytes a bs) = true := by
  induction bs generalizing m a with
  | nil => exact hm
  | cons b bs ih => exact ih (CMap.wf_wr hm a b) (a + 1)

/-- So does one written under byte enables. -/
theorem CMap.wf_wrMasked (bs : List Byte) {m : CMap 8} (hm : Memory.wf m = true) (a : Nat) (ens : List Bool) :
    Memory.wf (m.wrMasked a bs ens) = true := by
  induction bs generalizing m a ens with
  | nil => exact hm
  | cons b bs ih =>
    cases ens with
    | nil => exact ih (CMap.wf_wr hm a b) (a + 1) []
    | cons e ens =>
      simp only [CMap.wrMasked]
      exact ih (by split <;> [exact CMap.wf_wr hm a b; exact hm]) (a + 1) ens

/-- A byte outside a string written reads as before. -/
theorem CMap.rd_wrBytes_outside (bs : List Byte) {m : CMap 8} (hm : Memory.wf m = true) {a k : Nat}
    (h : k < a ∨ a + bs.length ≤ k) : (m.wrBytes a bs).rd k = m.rd k := by
  induction bs generalizing m a with
  | nil => rfl
  | cons b bs ih =>
    simp only [List.length_cons] at h
    exact (ih (CMap.wf_wr hm a b) (by omega)).trans (CMap.rd_wr_other hm (by omega) b)

/-- Byte `i` of a string written reads as its byte `i`. -/
theorem CMap.rd_wrBytes_inside (bs : List Byte) {m : CMap 8} (hm : Memory.wf m = true) (a : Nat) {i : Nat} (h : i < bs.length) :
    (m.wrBytes a bs).rd (a + i) = bs[i] := by
  induction bs generalizing m a i with
  | nil => simp at h
  | cons b bs ih =>
    cases i with
    | zero =>
      exact (CMap.rd_wrBytes_outside bs (CMap.wf_wr hm a b) (by omega)).trans (CMap.rd_wr_same hm a b)
    | succ i =>
      have := ih (CMap.wf_wr hm a b) (a + 1) (i := i) (by simpa using h)
      rw [Nat.add_right_comm] at this
      exact this

/-- A byte outside a string written under enables reads as before. -/
theorem CMap.rd_wrMasked_outside (bs : List Byte) {m : CMap 8} (hm : Memory.wf m = true) {a k : Nat} (ens : List Bool)
    (h : k < a ∨ a + bs.length ≤ k) : (m.wrMasked a bs ens).rd k = m.rd k := by
  induction bs generalizing m a ens with
  | nil => rfl
  | cons b bs ih =>
    simp only [List.length_cons] at h
    cases ens with
    | nil => exact (ih (CMap.wf_wr hm a b) [] (by omega)).trans (CMap.rd_wr_other hm (by omega) b)
    | cons e ens =>
      simp only [CMap.wrMasked]
      cases e
      · exact ih hm ens (by omega)
      · exact (ih (CMap.wf_wr hm a b) ens (by omega)).trans (CMap.rd_wr_other hm (by omega) b)

/-! ## Filtering -/

theorem CMap.wfFrom_filter (p : Nat × BitVec w → Bool) {lo : Nat} {m : CMap w} (hm : CMap.wfFrom d lo m = true) :
    CMap.wfFrom d lo (m.filter p) = true := by
  induction m generalizing lo with
  | nil => rfl
  | cons q m ih =>
    obtain ⟨k, v⟩ := q
    rw [CMap.wfFrom_cons] at hm
    by_cases h : p (k, v) = true
    · rw [List.filter_cons_of_pos h]
      exact CMap.wfFrom_cons.2 ⟨hm.1, hm.2.1, ih hm.2.2⟩
    · rw [List.filter_cons_of_neg h]
      exact CMap.wfFrom_mono (by omega) (ih hm.2.2)

/-- Dropping entries keeps the canonical form. -/
theorem CMap.wf_filter (p : Nat × BitVec w → Bool) {m : CMap w} (hm : CMap.wf d m = true) : CMap.wf d (m.filter p) = true :=
  CMap.wfFrom_filter p hm

end Sys2Proof
end

