-- ==== Sys2Proof/Laws/State.lean ====
section
/-! SUPPORT. The small lemmas of State: what each elementary update leaves of each field (true by rfl), what the accessors of units
and registers read after an update of the same or of another one. `modX` and `setFld` are rewritten to `setX` and `setReg`. -/

namespace Sys2Proof.Machine

/-! ## One spelling per update -/

@[simp] theorem State.modBarn_eq (s : State) (b : Nat) (g : Barn → Barn) : s.modBarn b g = s.setBarn b (g (s.barn b)) := rfl
@[simp] theorem State.modEngine_eq (s : State) (e : Nat) (g : Engine → Engine) : s.modEngine e g = s.setEngine e (g (s.engine e)) := rfl
@[simp] theorem State.modFlume_eq (s : State) (f : Nat) (g : Flume → Flume) : s.modFlume f g = s.setFlume f (g (s.flume f)) := rfl
@[simp] theorem State.modStack_eq (s : State) (k : Nat) (g : Stack → Stack) : s.modStack k g = s.setStack k (g (s.stack k)) := rfl
@[simp] theorem State.modPort_eq (s : State) (p : Nat) (g : Port → Port) : s.modPort p g = s.setPort p (g (s.port p)) := rfl
@[simp] theorem State.modJob_eq (s : State) (j : Nat) (g : Job → Job) : s.modJob j g = s.setJob j (g (s.job j)) := rfl
@[simp] theorem State.modFp_eq (s : State) (k : Nat) (g : Fp → Fp) : s.modFp k g = s.setFp k (g (s.fp k)) := rfl
@[simp] theorem State.setFld_eq (s : State) (a hi lo v : Nat) : s.setFld a hi lo v = s.setReg a ((s.reg a).setBits hi lo v) := rfl
@[simp] theorem State.fresh_fst (s : State) : s.fresh.1 = Config.free s.freeIx := rfl
@[simp] theorem State.fresh_snd (s : State) : s.fresh.2 = { s with freeIx := s.freeIx + 1 } := rfl

/-! ## Fields after an update -/

@[simp] theorem State.setReg_time (s : State) (a : Nat) (v : Word) : (s.setReg a v).time = s.time := rfl
@[simp] theorem State.setReg_mem (s : State) (a : Nat) (v : Word) : (s.setReg a v).mem = s.mem := rfl
@[simp] theorem State.setReg_memTag (s : State) (a : Nat) (v : Word) : (s.setReg a v).memTag = s.memTag := rfl
@[simp] theorem State.setReg_crib (s : State) (a : Nat) (v : Word) : (s.setReg a v).crib = s.crib := rfl
@[simp] theorem State.setReg_cribBad (s : State) (a : Nat) (v : Word) : (s.setReg a v).cribBad = s.cribBad := rfl
@[simp] theorem State.setReg_loft (s : State) (a : Nat) (v : Word) : (s.setReg a v).loft = s.loft := rfl
@[simp] theorem State.setReg_gran (s : State) (a : Nat) (v : Word) : (s.setReg a v).gran = s.gran := rfl
@[simp] theorem State.setReg_granBad (s : State) (a : Nat) (v : Word) : (s.setReg a v).granBad = s.granBad := rfl
@[simp] theorem State.setReg_barns (s : State) (a : Nat) (v : Word) : (s.setReg a v).barns = s.barns := rfl
@[simp] theorem State.setReg_engines (s : State) (a : Nat) (v : Word) : (s.setReg a v).engines = s.engines := rfl
@[simp] theorem State.setReg_flumes (s : State) (a : Nat) (v : Word) : (s.setReg a v).flumes = s.flumes := rfl
@[simp] theorem State.setReg_memStacks (s : State) (a : Nat) (v : Word) : (s.setReg a v).memStacks = s.memStacks := rfl
@[simp] theorem State.setReg_ports (s : State) (a : Nat) (v : Word) : (s.setReg a v).ports = s.ports := rfl
@[simp] theorem State.setReg_jobs (s : State) (a : Nat) (v : Word) : (s.setReg a v).jobs = s.jobs := rfl
@[simp] theorem State.setReg_coll (s : State) (a : Nat) (v : Word) : (s.setReg a v).coll = s.coll := rfl
@[simp] theorem State.setReg_tally (s : State) (a : Nat) (v : Word) : (s.setReg a v).tally = s.tally := rfl
@[simp] theorem State.setReg_gauge (s : State) (a : Nat) (v : Word) : (s.setReg a v).gauge = s.gauge := rfl
@[simp] theorem State.setReg_fps (s : State) (a : Nat) (v : Word) : (s.setReg a v).fps = s.fps := rfl
@[simp] theorem State.setReg_fuses (s : State) (a : Nat) (v : Word) : (s.setReg a v).fuses = s.fuses := rfl
@[simp] theorem State.setReg_module (s : State) (a : Nat) (v : Word) : (s.setReg a v).module = s.module := rfl
@[simp] theorem State.setReg_host (s : State) (a : Nat) (v : Word) : (s.setReg a v).host = s.host := rfl
@[simp] theorem State.setReg_mgmt (s : State) (a : Nat) (v : Word) : (s.setReg a v).mgmt = s.mgmt := rfl
@[simp] theorem State.setReg_tap (s : State) (a : Nat) (v : Word) : (s.setReg a v).tap = s.tap := rfl
@[simp] theorem State.setReg_glog (s : State) (a : Nat) (v : Word) : (s.setReg a v).glog = s.glog := rfl
@[simp] theorem State.setReg_glogCount (s : State) (a : Nat) (v : Word) : (s.setReg a v).glogCount = s.glogCount := rfl
@[simp] theorem State.setReg_fswCls (s : State) (a : Nat) (v : Word) : (s.setReg a v).fswCls = s.fswCls := rfl
@[simp] theorem State.setReg_fatal (s : State) (a : Nat) (v : Word) : (s.setReg a v).fatal = s.fatal := rfl
@[simp] theorem State.setReg_springBad (s : State) (a : Nat) (v : Word) : (s.setReg a v).springBad = s.springBad := rfl
@[simp] theorem State.setReg_lsdPending (s : State) (a : Nat) (v : Word) : (s.setReg a v).lsdPending = s.lsdPending := rfl
@[simp] theorem State.setReg_slicePend (s : State) (a : Nat) (v : Word) : (s.setReg a v).slicePend = s.slicePend := rfl
@[simp] theorem State.setReg_chanSent (s : State) (a : Nat) (v : Word) : (s.setReg a v).chanSent = s.chanSent := rfl
@[simp] theorem State.setReg_chanLanded (s : State) (a : Nat) (v : Word) : (s.setReg a v).chanLanded = s.chanLanded := rfl
@[simp] theorem State.setReg_fswTick (s : State) (a : Nat) (v : Word) : (s.setReg a v).fswTick = s.fswTick := rfl
@[simp] theorem State.setReg_regionActs (s : State) (a : Nat) (v : Word) : (s.setReg a v).regionActs = s.regionActs := rfl
@[simp] theorem State.setReg_granWaits (s : State) (a : Nat) (v : Word) : (s.setReg a v).granWaits = s.granWaits := rfl
@[simp] theorem State.setReg_sliceRun (s : State) (a : Nat) (v : Word) : (s.setReg a v).sliceRun = s.sliceRun := rfl
@[simp] theorem State.setReg_pools (s : State) (a : Nat) (v : Word) : (s.setReg a v).pools = s.pools := rfl
@[simp] theorem State.setReg_freeIx (s : State) (a : Nat) (v : Word) : (s.setReg a v).freeIx = s.freeIx := rfl
@[simp] theorem State.setReg_pending (s : State) (a : Nat) (v : Word) : (s.setReg a v).pending = s.pending := rfl

@[simp] theorem State.setBarn_time (s : State) (b : Nat) (x : Barn) : (s.setBarn b x).time = s.time := rfl
@[simp] theorem State.setBarn_regs (s : State) (b : Nat) (x : Barn) : (s.setBarn b x).regs = s.regs := rfl
@[simp] theorem State.setBarn_mem (s : State) (b : Nat) (x : Barn) : (s.setBarn b x).mem = s.mem := rfl
@[simp] theorem State.setBarn_memTag (s : State) (b : Nat) (x : Barn) : (s.setBarn b x).memTag = s.memTag := rfl
@[simp] theorem State.setBarn_crib (s : State) (b : Nat) (x : Barn) : (s.setBarn b x).crib = s.crib := rfl
@[simp] theorem State.setBarn_cribBad (s : State) (b : Nat) (x : Barn) : (s.setBarn b x).cribBad = s.cribBad := rfl
@[simp] theorem State.setBarn_loft (s : State) (b : Nat) (x : Barn) : (s.setBarn b x).loft = s.loft := rfl
@[simp] theorem State.setBarn_gran (s : State) (b : Nat) (x : Barn) : (s.setBarn b x).gran = s.gran := rfl
@[simp] theorem State.setBarn_granBad (s : State) (b : Nat) (x : Barn) : (s.setBarn b x).granBad = s.granBad := rfl
@[simp] theorem State.setBarn_engines (s : State) (b : Nat) (x : Barn) : (s.setBarn b x).engines = s.engines := rfl
@[simp] theorem State.setBarn_flumes (s : State) (b : Nat) (x : Barn) : (s.setBarn b x).flumes = s.flumes := rfl
@[simp] theorem State.setBarn_memStacks (s : State) (b : Nat) (x : Barn) : (s.setBarn b x).memStacks = s.memStacks := rfl
@[simp] theorem State.setBarn_ports (s : State) (b : Nat) (x : Barn) : (s.setBarn b x).ports = s.ports := rfl
@[simp] theorem State.setBarn_jobs (s : State) (b : Nat) (x : Barn) : (s.setBarn b x).jobs = s.jobs := rfl
@[simp] theorem State.setBarn_coll (s : State) (b : Nat) (x : Barn) : (s.setBarn b x).coll = s.coll := rfl
@[simp] theorem State.setBarn_tally (s : State) (b : Nat) (x : Barn) : (s.setBarn b x).tally = s.tally := rfl
@[simp] theorem State.setBarn_gauge (s : State) (b : Nat) (x : Barn) : (s.setBarn b x).gauge = s.gauge := rfl
@[simp] theorem State.setBarn_fps (s : State) (b : Nat) (x : Barn) : (s.setBarn b x).fps = s.fps := rfl
@[simp] theorem State.setBarn_fuses (s : State) (b : Nat) (x : Barn) : (s.setBarn b x).fuses = s.fuses := rfl
@[simp] theorem State.setBarn_module (s : State) (b : Nat) (x : Barn) : (s.setBarn b x).module = s.module := rfl
@[simp] theorem State.setBarn_host (s : State) (b : Nat) (x : Barn) : (s.setBarn b x).host = s.host := rfl
@[simp] theorem State.setBarn_mgmt (s : State) (b : Nat) (x : Barn) : (s.setBarn b x).mgmt = s.mgmt := rfl
@[simp] theorem State.setBarn_tap (s : State) (b : Nat) (x : Barn) : (s.setBarn b x).tap = s.tap := rfl
@[simp] theorem State.setBarn_glog (s : State) (b : Nat) (x : Barn) : (s.setBarn b x).glog = s.glog := rfl
@[simp] theorem State.setBarn_glogCount (s : State) (b : Nat) (x : Barn) : (s.setBarn b x).glogCount = s.glogCount := rfl
@[simp] theorem State.setBarn_fswCls (s : State) (b : Nat) (x : Barn) : (s.setBarn b x).fswCls = s.fswCls := rfl
@[simp] theorem State.setBarn_fatal (s : State) (b : Nat) (x : Barn) : (s.setBarn b x).fatal = s.fatal := rfl
@[simp] theorem State.setBarn_springBad (s : State) (b : Nat) (x : Barn) : (s.setBarn b x).springBad = s.springBad := rfl
@[simp] theorem State.setBarn_lsdPending (s : State) (b : Nat) (x : Barn) : (s.setBarn b x).lsdPending = s.lsdPending := rfl
@[simp] theorem State.setBarn_slicePend (s : State) (b : Nat) (x : Barn) : (s.setBarn b x).slicePend = s.slicePend := rfl
@[simp] theorem State.setBarn_chanSent (s : State) (b : Nat) (x : Barn) : (s.setBarn b x).chanSent = s.chanSent := rfl
@[simp] theorem State.setBarn_chanLanded (s : State) (b : Nat) (x : Barn) : (s.setBarn b x).chanLanded = s.chanLanded := rfl
@[simp] theorem State.setBarn_fswTick (s : State) (b : Nat) (x : Barn) : (s.setBarn b x).fswTick = s.fswTick := rfl
@[simp] theorem State.setBarn_regionActs (s : State) (b : Nat) (x : Barn) : (s.setBarn b x).regionActs = s.regionActs := rfl
@[simp] theorem State.setBarn_granWaits (s : State) (b : Nat) (x : Barn) : (s.setBarn b x).granWaits = s.granWaits := rfl
@[simp] theorem State.setBarn_sliceRun (s : State) (b : Nat) (x : Barn) : (s.setBarn b x).sliceRun = s.sliceRun := rfl
@[simp] theorem State.setBarn_pools (s : State) (b : Nat) (x : Barn) : (s.setBarn b x).pools = s.pools := rfl
@[simp] theorem State.setBarn_freeIx (s : State) (b : Nat) (x : Barn) : (s.setBarn b x).freeIx = s.freeIx := rfl
@[simp] theorem State.setBarn_pending (s : State) (b : Nat) (x : Barn) : (s.setBarn b x).pending = s.pending := rfl

@[simp] theorem State.setEngine_time (s : State) (e : Nat) (x : Engine) : (s.setEngine e x).time = s.time := rfl
@[simp] theorem State.setEngine_regs (s : State) (e : Nat) (x : Engine) : (s.setEngine e x).regs = s.regs := rfl
@[simp] theorem State.setEngine_mem (s : State) (e : Nat) (x : Engine) : (s.setEngine e x).mem = s.mem := rfl
@[simp] theorem State.setEngine_memTag (s : State) (e : Nat) (x : Engine) : (s.setEngine e x).memTag = s.memTag := rfl
@[simp] theorem State.setEngine_crib (s : State) (e : Nat) (x : Engine) : (s.setEngine e x).crib = s.crib := rfl
@[simp] theorem State.setEngine_cribBad (s : State) (e : Nat) (x : Engine) : (s.setEngine e x).cribBad = s.cribBad := rfl
@[simp] theorem State.setEngine_loft (s : State) (e : Nat) (x : Engine) : (s.setEngine e x).loft = s.loft := rfl
@[simp] theorem State.setEngine_gran (s : State) (e : Nat) (x : Engine) : (s.setEngine e x).gran = s.gran := rfl
@[simp] theorem State.setEngine_granBad (s : State) (e : Nat) (x : Engine) : (s.setEngine e x).granBad = s.granBad := rfl
@[simp] theorem State.setEngine_barns (s : State) (e : Nat) (x : Engine) : (s.setEngine e x).barns = s.barns := rfl
@[simp] theorem State.setEngine_flumes (s : State) (e : Nat) (x : Engine) : (s.setEngine e x).flumes = s.flumes := rfl
@[simp] theorem State.setEngine_memStacks (s : State) (e : Nat) (x : Engine) : (s.setEngine e x).memStacks = s.memStacks := rfl
@[simp] theorem State.setEngine_ports (s : State) (e : Nat) (x : Engine) : (s.setEngine e x).ports = s.ports := rfl
@[simp] theorem State.setEngine_jobs (s : State) (e : Nat) (x : Engine) : (s.setEngine e x).jobs = s.jobs := rfl
@[simp] theorem State.setEngine_coll (s : State) (e : Nat) (x : Engine) : (s.setEngine e x).coll = s.coll := rfl
@[simp] theorem State.setEngine_tally (s : State) (e : Nat) (x : Engine) : (s.setEngine e x).tally = s.tally := rfl
@[simp] theorem State.setEngine_gauge (s : State) (e : Nat) (x : Engine) : (s.setEngine e x).gauge = s.gauge := rfl
@[simp] theorem State.setEngine_fps (s : State) (e : Nat) (x : Engine) : (s.setEngine e x).fps = s.fps := rfl
@[simp] theorem State.setEngine_fuses (s : State) (e : Nat) (x : Engine) : (s.setEngine e x).fuses = s.fuses := rfl
@[simp] theorem State.setEngine_module (s : State) (e : Nat) (x : Engine) : (s.setEngine e x).module = s.module := rfl
@[simp] theorem State.setEngine_host (s : State) (e : Nat) (x : Engine) : (s.setEngine e x).host = s.host := rfl
@[simp] theorem State.setEngine_mgmt (s : State) (e : Nat) (x : Engine) : (s.setEngine e x).mgmt = s.mgmt := rfl
@[simp] theorem State.setEngine_tap (s : State) (e : Nat) (x : Engine) : (s.setEngine e x).tap = s.tap := rfl
@[simp] theorem State.setEngine_glog (s : State) (e : Nat) (x : Engine) : (s.setEngine e x).glog = s.glog := rfl
@[simp] theorem State.setEngine_glogCount (s : State) (e : Nat) (x : Engine) : (s.setEngine e x).glogCount = s.glogCount := rfl
@[simp] theorem State.setEngine_fswCls (s : State) (e : Nat) (x : Engine) : (s.setEngine e x).fswCls = s.fswCls := rfl
@[simp] theorem State.setEngine_fatal (s : State) (e : Nat) (x : Engine) : (s.setEngine e x).fatal = s.fatal := rfl
@[simp] theorem State.setEngine_springBad (s : State) (e : Nat) (x : Engine) : (s.setEngine e x).springBad = s.springBad := rfl
@[simp] theorem State.setEngine_lsdPending (s : State) (e : Nat) (x : Engine) : (s.setEngine e x).lsdPending = s.lsdPending := rfl
@[simp] theorem State.setEngine_slicePend (s : State) (e : Nat) (x : Engine) : (s.setEngine e x).slicePend = s.slicePend := rfl
@[simp] theorem State.setEngine_chanSent (s : State) (e : Nat) (x : Engine) : (s.setEngine e x).chanSent = s.chanSent := rfl
@[simp] theorem State.setEngine_chanLanded (s : State) (e : Nat) (x : Engine) : (s.setEngine e x).chanLanded = s.chanLanded := rfl
@[simp] theorem State.setEngine_fswTick (s : State) (e : Nat) (x : Engine) : (s.setEngine e x).fswTick = s.fswTick := rfl
@[simp] theorem State.setEngine_regionActs (s : State) (e : Nat) (x : Engine) : (s.setEngine e x).regionActs = s.regionActs := rfl
@[simp] theorem State.setEngine_granWaits (s : State) (e : Nat) (x : Engine) : (s.setEngine e x).granWaits = s.granWaits := rfl
@[simp] theorem State.setEngine_sliceRun (s : State) (e : Nat) (x : Engine) : (s.setEngine e x).sliceRun = s.sliceRun := rfl
@[simp] theorem State.setEngine_pools (s : State) (e : Nat) (x : Engine) : (s.setEngine e x).pools = s.pools := rfl
@[simp] theorem State.setEngine_freeIx (s : State) (e : Nat) (x : Engine) : (s.setEngine e x).freeIx = s.freeIx := rfl
@[simp] theorem State.setEngine_pending (s : State) (e : Nat) (x : Engine) : (s.setEngine e x).pending = s.pending := rfl

@[simp] theorem State.setFlume_time (s : State) (f : Nat) (x : Flume) : (s.setFlume f x).time = s.time := rfl
@[simp] theorem State.setFlume_regs (s : State) (f : Nat) (x : Flume) : (s.setFlume f x).regs = s.regs := rfl
@[simp] theorem State.setFlume_mem (s : State) (f : Nat) (x : Flume) : (s.setFlume f x).mem = s.mem := rfl
@[simp] theorem State.setFlume_memTag (s : State) (f : Nat) (x : Flume) : (s.setFlume f x).memTag = s.memTag := rfl
@[simp] theorem State.setFlume_crib (s : State) (f : Nat) (x : Flume) : (s.setFlume f x).crib = s.crib := rfl
@[simp] theorem State.setFlume_cribBad (s : State) (f : Nat) (x : Flume) : (s.setFlume f x).cribBad = s.cribBad := rfl
@[simp] theorem State.setFlume_loft (s : State) (f : Nat) (x : Flume) : (s.setFlume f x).loft = s.loft := rfl
@[simp] theorem State.setFlume_gran (s : State) (f : Nat) (x : Flume) : (s.setFlume f x).gran = s.gran := rfl
@[simp] theorem State.setFlume_granBad (s : State) (f : Nat) (x : Flume) : (s.setFlume f x).granBad = s.granBad := rfl
@[simp] theorem State.setFlume_barns (s : State) (f : Nat) (x : Flume) : (s.setFlume f x).barns = s.barns := rfl
@[simp] theorem State.setFlume_engines (s : State) (f : Nat) (x : Flume) : (s.setFlume f x).engines = s.engines := rfl
@[simp] theorem State.setFlume_memStacks (s : State) (f : Nat) (x : Flume) : (s.setFlume f x).memStacks = s.memStacks := rfl
@[simp] theorem State.setFlume_ports (s : State) (f : Nat) (x : Flume) : (s.setFlume f x).ports = s.ports := rfl
@[simp] theorem State.setFlume_jobs (s : State) (f : Nat) (x : Flume) : (s.setFlume f x).jobs = s.jobs := rfl
@[simp] theorem State.setFlume_coll (s : State) (f : Nat) (x : Flume) : (s.setFlume f x).coll = s.coll := rfl
@[simp] theorem State.setFlume_tally (s : State) (f : Nat) (x : Flume) : (s.setFlume f x).tally = s.tally := rfl
@[simp] theorem State.setFlume_gauge (s : State) (f : Nat) (x : Flume) : (s.setFlume f x).gauge = s.gauge := rfl
@[simp] theorem State.setFlume_fps (s : State) (f : Nat) (x : Flume) : (s.setFlume f x).fps = s.fps := rfl
@[simp] theorem State.setFlume_fuses (s : State) (f : Nat) (x : Flume) : (s.setFlume f x).fuses = s.fuses := rfl
@[simp] theorem State.setFlume_module (s : State) (f : Nat) (x : Flume) : (s.setFlume f x).module = s.module := rfl
@[simp] theorem State.setFlume_host (s : State) (f : Nat) (x : Flume) : (s.setFlume f x).host = s.host := rfl
@[simp] theorem State.setFlume_mgmt (s : State) (f : Nat) (x : Flume) : (s.setFlume f x).mgmt = s.mgmt := rfl
@[simp] theorem State.setFlume_tap (s : State) (f : Nat) (x : Flume) : (s.setFlume f x).tap = s.tap := rfl
@[simp] theorem State.setFlume_glog (s : State) (f : Nat) (x : Flume) : (s.setFlume f x).glog = s.glog := rfl
@[simp] theorem State.setFlume_glogCount (s : State) (f : Nat) (x : Flume) : (s.setFlume f x).glogCount = s.glogCount := rfl
@[simp] theorem State.setFlume_fswCls (s : State) (f : Nat) (x : Flume) : (s.setFlume f x).fswCls = s.fswCls := rfl
@[simp] theorem State.setFlume_fatal (s : State) (f : Nat) (x : Flume) : (s.setFlume f x).fatal = s.fatal := rfl
@[simp] theorem State.setFlume_springBad (s : State) (f : Nat) (x : Flume) : (s.setFlume f x).springBad = s.springBad := rfl
@[simp] theorem State.setFlume_lsdPending (s : State) (f : Nat) (x : Flume) : (s.setFlume f x).lsdPending = s.lsdPending := rfl
@[simp] theorem State.setFlume_slicePend (s : State) (f : Nat) (x : Flume) : (s.setFlume f x).slicePend = s.slicePend := rfl
@[simp] theorem State.setFlume_chanSent (s : State) (f : Nat) (x : Flume) : (s.setFlume f x).chanSent = s.chanSent := rfl
@[simp] theorem State.setFlume_chanLanded (s : State) (f : Nat) (x : Flume) : (s.setFlume f x).chanLanded = s.chanLanded := rfl
@[simp] theorem State.setFlume_fswTick (s : State) (f : Nat) (x : Flume) : (s.setFlume f x).fswTick = s.fswTick := rfl
@[simp] theorem State.setFlume_regionActs (s : State) (f : Nat) (x : Flume) : (s.setFlume f x).regionActs = s.regionActs := rfl
@[simp] theorem State.setFlume_granWaits (s : State) (f : Nat) (x : Flume) : (s.setFlume f x).granWaits = s.granWaits := rfl
@[simp] theorem State.setFlume_sliceRun (s : State) (f : Nat) (x : Flume) : (s.setFlume f x).sliceRun = s.sliceRun := rfl
@[simp] theorem State.setFlume_pools (s : State) (f : Nat) (x : Flume) : (s.setFlume f x).pools = s.pools := rfl
@[simp] theorem State.setFlume_freeIx (s : State) (f : Nat) (x : Flume) : (s.setFlume f x).freeIx = s.freeIx := rfl
@[simp] theorem State.setFlume_pending (s : State) (f : Nat) (x : Flume) : (s.setFlume f x).pending = s.pending := rfl

@[simp] theorem State.setStack_time (s : State) (k : Nat) (x : Stack) : (s.setStack k x).time = s.time := rfl
@[simp] theorem State.setStack_regs (s : State) (k : Nat) (x : Stack) : (s.setStack k x).regs = s.regs := rfl
@[simp] theorem State.setStack_mem (s : State) (k : Nat) (x : Stack) : (s.setStack k x).mem = s.mem := rfl
@[simp] theorem State.setStack_memTag (s : State) (k : Nat) (x : Stack) : (s.setStack k x).memTag = s.memTag := rfl
@[simp] theorem State.setStack_crib (s : State) (k : Nat) (x : Stack) : (s.setStack k x).crib = s.crib := rfl
@[simp] theorem State.setStack_cribBad (s : State) (k : Nat) (x : Stack) : (s.setStack k x).cribBad = s.cribBad := rfl
@[simp] theorem State.setStack_loft (s : State) (k : Nat) (x : Stack) : (s.setStack k x).loft = s.loft := rfl
@[simp] theorem State.setStack_gran (s : State) (k : Nat) (x : Stack) : (s.setStack k x).gran = s.gran := rfl
@[simp] theorem State.setStack_granBad (s : State) (k : Nat) (x : Stack) : (s.setStack k x).granBad = s.granBad := rfl
@[simp] theorem State.setStack_barns (s : State) (k : Nat) (x : Stack) : (s.setStack k x).barns = s.barns := rfl
@[simp] theorem State.setStack_engines (s : State) (k : Nat) (x : Stack) : (s.setStack k x).engines = s.engines := rfl
@[simp] theorem State.setStack_flumes (s : State) (k : Nat) (x : Stack) : (s.setStack k x).flumes = s.flumes := rfl
@[simp] theorem State.setStack_ports (s : State) (k : Nat) (x : Stack) : (s.setStack k x).ports = s.ports := rfl
@[simp] theorem State.setStack_jobs (s : State) (k : Nat) (x : Stack) : (s.setStack k x).jobs = s.jobs := rfl
@[simp] theorem State.setStack_coll (s : State) (k : Nat) (x : Stack) : (s.setStack k x).coll = s.coll := rfl
@[simp] theorem State.setStack_tally (s : State) (k : Nat) (x : Stack) : (s.setStack k x).tally = s.tally := rfl
@[simp] theorem State.setStack_gauge (s : State) (k : Nat) (x : Stack) : (s.setStack k x).gauge = s.gauge := rfl
@[simp] theorem State.setStack_fps (s : State) (k : Nat) (x : Stack) : (s.setStack k x).fps = s.fps := rfl
@[simp] theorem State.setStack_fuses (s : State) (k : Nat) (x : Stack) : (s.setStack k x).fuses = s.fuses := rfl
@[simp] theorem State.setStack_module (s : State) (k : Nat) (x : Stack) : (s.setStack k x).module = s.module := rfl
@[simp] theorem State.setStack_host (s : State) (k : Nat) (x : Stack) : (s.setStack k x).host = s.host := rfl
@[simp] theorem State.setStack_mgmt (s : State) (k : Nat) (x : Stack) : (s.setStack k x).mgmt = s.mgmt := rfl
@[simp] theorem State.setStack_tap (s : State) (k : Nat) (x : Stack) : (s.setStack k x).tap = s.tap := rfl
@[simp] theorem State.setStack_glog (s : State) (k : Nat) (x : Stack) : (s.setStack k x).glog = s.glog := rfl
@[simp] theorem State.setStack_glogCount (s : State) (k : Nat) (x : Stack) : (s.setStack k x).glogCount = s.glogCount := rfl
@[simp] theorem State.setStack_fswCls (s : State) (k : Nat) (x : Stack) : (s.setStack k x).fswCls = s.fswCls := rfl
@[simp] theorem State.setStack_fatal (s : State) (k : Nat) (x : Stack) : (s.setStack k x).fatal = s.fatal := rfl
@[simp] theorem State.setStack_springBad (s : State) (k : Nat) (x : Stack) : (s.setStack k x).springBad = s.springBad := rfl
@[simp] theorem State.setStack_lsdPending (s : State) (k : Nat) (x : Stack) : (s.setStack k x).lsdPending = s.lsdPending := rfl
@[simp] theorem State.setStack_slicePend (s : State) (k : Nat) (x : Stack) : (s.setStack k x).slicePend = s.slicePend := rfl
@[simp] theorem State.setStack_chanSent (s : State) (k : Nat) (x : Stack) : (s.setStack k x).chanSent = s.chanSent := rfl
@[simp] theorem State.setStack_chanLanded (s : State) (k : Nat) (x : Stack) : (s.setStack k x).chanLanded = s.chanLanded := rfl
@[simp] theorem State.setStack_fswTick (s : State) (k : Nat) (x : Stack) : (s.setStack k x).fswTick = s.fswTick := rfl
@[simp] theorem State.setStack_regionActs (s : State) (k : Nat) (x : Stack) : (s.setStack k x).regionActs = s.regionActs := rfl
@[simp] theorem State.setStack_granWaits (s : State) (k : Nat) (x : Stack) : (s.setStack k x).granWaits = s.granWaits := rfl
@[simp] theorem State.setStack_sliceRun (s : State) (k : Nat) (x : Stack) : (s.setStack k x).sliceRun = s.sliceRun := rfl
@[simp] theorem State.setStack_pools (s : State) (k : Nat) (x : Stack) : (s.setStack k x).pools = s.pools := rfl
@[simp] theorem State.setStack_freeIx (s : State) (k : Nat) (x : Stack) : (s.setStack k x).freeIx = s.freeIx := rfl
@[simp] theorem State.setStack_pending (s : State) (k : Nat) (x : Stack) : (s.setStack k x).pending = s.pending := rfl

@[simp] theorem State.setPort_time (s : State) (p : Nat) (x : Port) : (s.setPort p x).time = s.time := rfl
@[simp] theorem State.setPort_regs (s : State) (p : Nat) (x : Port) : (s.setPort p x).regs = s.regs := rfl
@[simp] theorem State.setPort_mem (s : State) (p : Nat) (x : Port) : (s.setPort p x).mem = s.mem := rfl
@[simp] theorem State.setPort_memTag (s : State) (p : Nat) (x : Port) : (s.setPort p x).memTag = s.memTag := rfl
@[simp] theorem State.setPort_crib (s : State) (p : Nat) (x : Port) : (s.setPort p x).crib = s.crib := rfl
@[simp] theorem State.setPort_cribBad (s : State) (p : Nat) (x : Port) : (s.setPort p x).cribBad = s.cribBad := rfl
@[simp] theorem State.setPort_loft (s : State) (p : Nat) (x : Port) : (s.setPort p x).loft = s.loft := rfl
@[simp] theorem State.setPort_gran (s : State) (p : Nat) (x : Port) : (s.setPort p x).gran = s.gran := rfl
@[simp] theorem State.setPort_granBad (s : State) (p : Nat) (x : Port) : (s.setPort p x).granBad = s.granBad := rfl
@[simp] theorem State.setPort_barns (s : State) (p : Nat) (x : Port) : (s.setPort p x).barns = s.barns := rfl
@[simp] theorem State.setPort_engines (s : State) (p : Nat) (x : Port) : (s.setPort p x).engines = s.engines := rfl
@[simp] theorem State.setPort_flumes (s : State) (p : Nat) (x : Port) : (s.setPort p x).flumes = s.flumes := rfl
@[simp] theorem State.setPort_memStacks (s : State) (p : Nat) (x : Port) : (s.setPort p x).memStacks = s.memStacks := rfl
@[simp] theorem State.setPort_jobs (s : State) (p : Nat) (x : Port) : (s.setPort p x).jobs = s.jobs := rfl
@[simp] theorem State.setPort_coll (s : State) (p : Nat) (x : Port) : (s.setPort p x).coll = s.coll := rfl
@[simp] theorem State.setPort_tally (s : State) (p : Nat) (x : Port) : (s.setPort p x).tally = s.tally := rfl
@[simp] theorem State.setPort_gauge (s : State) (p : Nat) (x : Port) : (s.setPort p x).gauge = s.gauge := rfl
@[simp] theorem State.setPort_fps (s : State) (p : Nat) (x : Port) : (s.setPort p x).fps = s.fps := rfl
@[simp] theorem State.setPort_fuses (s : State) (p : Nat) (x : Port) : (s.setPort p x).fuses = s.fuses := rfl
@[simp] theorem State.setPort_module (s : State) (p : Nat) (x : Port) : (s.setPort p x).module = s.module := rfl
@[simp] theorem State.setPort_host (s : State) (p : Nat) (x : Port) : (s.setPort p x).host = s.host := rfl
@[simp] theorem State.setPort_mgmt (s : State) (p : Nat) (x : Port) : (s.setPort p x).mgmt = s.mgmt := rfl
@[simp] theorem State.setPort_tap (s : State) (p : Nat) (x : Port) : (s.setPort p x).tap = s.tap := rfl
@[simp] theorem State.setPort_glog (s : State) (p : Nat) (x : Port) : (s.setPort p x).glog = s.glog := rfl
@[simp] theorem State.setPort_glogCount (s : State) (p : Nat) (x : Port) : (s.setPort p x).glogCount = s.glogCount := rfl
@[simp] theorem State.setPort_fswCls (s : State) (p : Nat) (x : Port) : (s.setPort p x).fswCls = s.fswCls := rfl
@[simp] theorem State.setPort_fatal (s : State) (p : Nat) (x : Port) : (s.setPort p x).fatal = s.fatal := rfl
@[simp] theorem State.setPort_springBad (s : State) (p : Nat) (x : Port) : (s.setPort p x).springBad = s.springBad := rfl
@[simp] theorem State.setPort_lsdPending (s : State) (p : Nat) (x : Port) : (s.setPort p x).lsdPending = s.lsdPending := rfl
@[simp] theorem State.setPort_slicePend (s : State) (p : Nat) (x : Port) : (s.setPort p x).slicePend = s.slicePend := rfl
@[simp] theorem State.setPort_chanSent (s : State) (p : Nat) (x : Port) : (s.setPort p x).chanSent = s.chanSent := rfl
@[simp] theorem State.setPort_chanLanded (s : State) (p : Nat) (x : Port) : (s.setPort p x).chanLanded = s.chanLanded := rfl
@[simp] theorem State.setPort_fswTick (s : State) (p : Nat) (x : Port) : (s.setPort p x).fswTick = s.fswTick := rfl
@[simp] theorem State.setPort_regionActs (s : State) (p : Nat) (x : Port) : (s.setPort p x).regionActs = s.regionActs := rfl
@[simp] theorem State.setPort_granWaits (s : State) (p : Nat) (x : Port) : (s.setPort p x).granWaits = s.granWaits := rfl
@[simp] theorem State.setPort_sliceRun (s : State) (p : Nat) (x : Port) : (s.setPort p x).sliceRun = s.sliceRun := rfl
@[simp] theorem State.setPort_pools (s : State) (p : Nat) (x : Port) : (s.setPort p x).pools = s.pools := rfl
@[simp] theorem State.setPort_freeIx (s : State) (p : Nat) (x : Port) : (s.setPort p x).freeIx = s.freeIx := rfl
@[simp] theorem State.setPort_pending (s : State) (p : Nat) (x : Port) : (s.setPort p x).pending = s.pending := rfl

@[simp] theorem State.setJob_time (s : State) (j : Nat) (x : Job) : (s.setJob j x).time = s.time := rfl
@[simp] theorem State.setJob_regs (s : State) (j : Nat) (x : Job) : (s.setJob j x).regs = s.regs := rfl
@[simp] theorem State.setJob_mem (s : State) (j : Nat) (x : Job) : (s.setJob j x).mem = s.mem := rfl
@[simp] theorem State.setJob_memTag (s : State) (j : Nat) (x : Job) : (s.setJob j x).memTag = s.memTag := rfl
@[simp] theorem State.setJob_crib (s : State) (j : Nat) (x : Job) : (s.setJob j x).crib = s.crib := rfl
@[simp] theorem State.setJob_cribBad (s : State) (j : Nat) (x : Job) : (s.setJob j x).cribBad = s.cribBad := rfl
@[simp] theorem State.setJob_loft (s : State) (j : Nat) (x : Job) : (s.setJob j x).loft = s.loft := rfl
@[simp] theorem State.setJob_gran (s : State) (j : Nat) (x : Job) : (s.setJob j x).gran = s.gran := rfl
@[simp] theorem State.setJob_granBad (s : State) (j : Nat) (x : Job) : (s.setJob j x).granBad = s.granBad := rfl
@[simp] theorem State.setJob_barns (s : State) (j : Nat) (x : Job) : (s.setJob j x).barns = s.barns := rfl
@[simp] theorem State.setJob_engines (s : State) (j : Nat) (x : Job) : (s.setJob j x).engines = s.engines := rfl
@[simp] theorem State.setJob_flumes (s : State) (j : Nat) (x : Job) : (s.setJob j x).flumes = s.flumes := rfl
@[simp] theorem State.setJob_memStacks (s : State) (j : Nat) (x : Job) : (s.setJob j x).memStacks = s.memStacks := rfl
@[simp] theorem State.setJob_ports (s : State) (j : Nat) (x : Job) : (s.setJob j x).ports = s.ports := rfl
@[simp] theorem State.setJob_coll (s : State) (j : Nat) (x : Job) : (s.setJob j x).coll = s.coll := rfl
@[simp] theorem State.setJob_tally (s : State) (j : Nat) (x : Job) : (s.setJob j x).tally = s.tally := rfl
@[simp] theorem State.setJob_gauge (s : State) (j : Nat) (x : Job) : (s.setJob j x).gauge = s.gauge := rfl
@[simp] theorem State.setJob_fps (s : State) (j : Nat) (x : Job) : (s.setJob j x).fps = s.fps := rfl
@[simp] theorem State.setJob_fuses (s : State) (j : Nat) (x : Job) : (s.setJob j x).fuses = s.fuses := rfl
@[simp] theorem State.setJob_module (s : State) (j : Nat) (x : Job) : (s.setJob j x).module = s.module := rfl
@[simp] theorem State.setJob_host (s : State) (j : Nat) (x : Job) : (s.setJob j x).host = s.host := rfl
@[simp] theorem State.setJob_mgmt (s : State) (j : Nat) (x : Job) : (s.setJob j x).mgmt = s.mgmt := rfl
@[simp] theorem State.setJob_tap (s : State) (j : Nat) (x : Job) : (s.setJob j x).tap = s.tap := rfl
@[simp] theorem State.setJob_glog (s : State) (j : Nat) (x : Job) : (s.setJob j x).glog = s.glog := rfl
@[simp] theorem State.setJob_glogCount (s : State) (j : Nat) (x : Job) : (s.setJob j x).glogCount = s.glogCount := rfl
@[simp] theorem State.setJob_fswCls (s : State) (j : Nat) (x : Job) : (s.setJob j x).fswCls = s.fswCls := rfl
@[simp] theorem State.setJob_fatal (s : State) (j : Nat) (x : Job) : (s.setJob j x).fatal = s.fatal := rfl
@[simp] theorem State.setJob_springBad (s : State) (j : Nat) (x : Job) : (s.setJob j x).springBad = s.springBad := rfl
@[simp] theorem State.setJob_lsdPending (s : State) (j : Nat) (x : Job) : (s.setJob j x).lsdPending = s.lsdPending := rfl
@[simp] theorem State.setJob_slicePend (s : State) (j : Nat) (x : Job) : (s.setJob j x).slicePend = s.slicePend := rfl
@[simp] theorem State.setJob_chanSent (s : State) (j : Nat) (x : Job) : (s.setJob j x).chanSent = s.chanSent := rfl
@[simp] theorem State.setJob_chanLanded (s : State) (j : Nat) (x : Job) : (s.setJob j x).chanLanded = s.chanLanded := rfl
@[simp] theorem State.setJob_fswTick (s : State) (j : Nat) (x : Job) : (s.setJob j x).fswTick = s.fswTick := rfl
@[simp] theorem State.setJob_regionActs (s : State) (j : Nat) (x : Job) : (s.setJob j x).regionActs = s.regionActs := rfl
@[simp] theorem State.setJob_granWaits (s : State) (j : Nat) (x : Job) : (s.setJob j x).granWaits = s.granWaits := rfl
@[simp] theorem State.setJob_sliceRun (s : State) (j : Nat) (x : Job) : (s.setJob j x).sliceRun = s.sliceRun := rfl
@[simp] theorem State.setJob_pools (s : State) (j : Nat) (x : Job) : (s.setJob j x).pools = s.pools := rfl
@[simp] theorem State.setJob_freeIx (s : State) (j : Nat) (x : Job) : (s.setJob j x).freeIx = s.freeIx := rfl
@[simp] theorem State.setJob_pending (s : State) (j : Nat) (x : Job) : (s.setJob j x).pending = s.pending := rfl

@[simp] theorem State.setFp_time (s : State) (k : Nat) (x : Fp) : (s.setFp k x).time = s.time := rfl
@[simp] theorem State.setFp_regs (s : State) (k : Nat) (x : Fp) : (s.setFp k x).regs = s.regs := rfl
@[simp] theorem State.setFp_mem (s : State) (k : Nat) (x : Fp) : (s.setFp k x).mem = s.mem := rfl
@[simp] theorem State.setFp_memTag (s : State) (k : Nat) (x : Fp) : (s.setFp k x).memTag = s.memTag := rfl
@[simp] theorem State.setFp_crib (s : State) (k : Nat) (x : Fp) : (s.setFp k x).crib = s.crib := rfl
@[simp] theorem State.setFp_cribBad (s : State) (k : Nat) (x : Fp) : (s.setFp k x).cribBad = s.cribBad := rfl
@[simp] theorem State.setFp_loft (s : State) (k : Nat) (x : Fp) : (s.setFp k x).loft = s.loft := rfl
@[simp] theorem State.setFp_gran (s : State) (k : Nat) (x : Fp) : (s.setFp k x).gran = s.gran := rfl
@[simp] theorem State.setFp_granBad (s : State) (k : Nat) (x : Fp) : (s.setFp k x).granBad = s.granBad := rfl
@[simp] theorem State.setFp_barns (s : State) (k : Nat) (x : Fp) : (s.setFp k x).barns = s.barns := rfl
@[simp] theorem State.setFp_engines (s : State) (k : Nat) (x : Fp) : (s.setFp k x).engines = s.engines := rfl
@[simp] theorem State.setFp_flumes (s : State) (k : Nat) (x : Fp) : (s.setFp k x).flumes = s.flumes := rfl
@[simp] theorem State.setFp_memStacks (s : State) (k : Nat) (x : Fp) : (s.setFp k x).memStacks = s.memStacks := rfl
@[simp] theorem State.setFp_ports (s : State) (k : Nat) (x : Fp) : (s.setFp k x).ports = s.ports := rfl
@[simp] theorem State.setFp_jobs (s : State) (k : Nat) (x : Fp) : (s.setFp k x).jobs = s.jobs := rfl
@[simp] theorem State.setFp_coll (s : State) (k : Nat) (x : Fp) : (s.setFp k x).coll = s.coll := rfl
@[simp] theorem State.setFp_tally (s : State) (k : Nat) (x : Fp) : (s.setFp k x).tally = s.tally := rfl
@[simp] theorem State.setFp_gauge (s : State) (k : Nat) (x : Fp) : (s.setFp k x).gauge = s.gauge := rfl
@[simp] theorem State.setFp_fuses (s : State) (k : Nat) (x : Fp) : (s.setFp k x).fuses = s.fuses := rfl
@[simp] theorem State.setFp_module (s : State) (k : Nat) (x : Fp) : (s.setFp k x).module = s.module := rfl
@[simp] theorem State.setFp_host (s : State) (k : Nat) (x : Fp) : (s.setFp k x).host = s.host := rfl
@[simp] theorem State.setFp_mgmt (s : State) (k : Nat) (x : Fp) : (s.setFp k x).mgmt = s.mgmt := rfl
@[simp] theorem State.setFp_tap (s : State) (k : Nat) (x : Fp) : (s.setFp k x).tap = s.tap := rfl
@[simp] theorem State.setFp_glog (s : State) (k : Nat) (x : Fp) : (s.setFp k x).glog = s.glog := rfl
@[simp] theorem State.setFp_glogCount (s : State) (k : Nat) (x : Fp) : (s.setFp k x).glogCount = s.glogCount := rfl
@[simp] theorem State.setFp_fswCls (s : State) (k : Nat) (x : Fp) : (s.setFp k x).fswCls = s.fswCls := rfl
@[simp] theorem State.setFp_fatal (s : State) (k : Nat) (x : Fp) : (s.setFp k x).fatal = s.fatal := rfl
@[simp] theorem State.setFp_springBad (s : State) (k : Nat) (x : Fp) : (s.setFp k x).springBad = s.springBad := rfl
@[simp] theorem State.setFp_lsdPending (s : State) (k : Nat) (x : Fp) : (s.setFp k x).lsdPending = s.lsdPending := rfl
@[simp] theorem State.setFp_slicePend (s : State) (k : Nat) (x : Fp) : (s.setFp k x).slicePend = s.slicePend := rfl
@[simp] theorem State.setFp_chanSent (s : State) (k : Nat) (x : Fp) : (s.setFp k x).chanSent = s.chanSent := rfl
@[simp] theorem State.setFp_chanLanded (s : State) (k : Nat) (x : Fp) : (s.setFp k x).chanLanded = s.chanLanded := rfl
@[simp] theorem State.setFp_fswTick (s : State) (k : Nat) (x : Fp) : (s.setFp k x).fswTick = s.fswTick := rfl
@[simp] theorem State.setFp_regionActs (s : State) (k : Nat) (x : Fp) : (s.setFp k x).regionActs = s.regionActs := rfl
@[simp] theorem State.setFp_granWaits (s : State) (k : Nat) (x : Fp) : (s.setFp k x).granWaits = s.granWaits := rfl
@[simp] theorem State.setFp_sliceRun (s : State) (k : Nat) (x : Fp) : (s.setFp k x).sliceRun = s.sliceRun := rfl
@[simp] theorem State.setFp_pools (s : State) (k : Nat) (x : Fp) : (s.setFp k x).pools = s.pools := rfl
@[simp] theorem State.setFp_freeIx (s : State) (k : Nat) (x : Fp) : (s.setFp k x).freeIx = s.freeIx := rfl
@[simp] theorem State.setFp_pending (s : State) (k : Nat) (x : Fp) : (s.setFp k x).pending = s.pending := rfl

/-! ## Units and registers after an update of something else -/

@[simp] theorem State.barn_setReg (s : State) (b a : Nat) (w : Word) : (s.setReg a w).barn b = s.barn b := rfl
@[simp] theorem State.reg_setBarn (s : State) (b a : Nat) (x : Barn) : (s.setBarn b x).reg a = s.reg a := rfl
@[simp] theorem State.engine_setBarn (s : State) (b e : Nat) (x : Barn) : (s.setBarn b x).engine e = s.engine e := rfl
@[simp] theorem State.flume_setBarn (s : State) (b f : Nat) (x : Barn) : (s.setBarn b x).flume f = s.flume f := rfl
@[simp] theorem State.stack_setBarn (s : State) (b k : Nat) (x : Barn) : (s.setBarn b x).stack k = s.stack k := rfl
@[simp] theorem State.port_setBarn (s : State) (b p : Nat) (x : Barn) : (s.setBarn b x).port p = s.port p := rfl
@[simp] theorem State.job_setBarn (s : State) (b j : Nat) (x : Barn) : (s.setBarn b x).job j = s.job j := rfl
@[simp] theorem State.fp_setBarn (s : State) (b k : Nat) (x : Barn) : (s.setBarn b x).fp k = s.fp k := rfl
@[simp] theorem State.engine_setReg (s : State) (e a : Nat) (w : Word) : (s.setReg a w).engine e = s.engine e := rfl
@[simp] theorem State.reg_setEngine (s : State) (e a : Nat) (x : Engine) : (s.setEngine e x).reg a = s.reg a := rfl
@[simp] theorem State.barn_setEngine (s : State) (e b : Nat) (x : Engine) : (s.setEngine e x).barn b = s.barn b := rfl
@[simp] theorem State.flume_setEngine (s : State) (e f : Nat) (x : Engine) : (s.setEngine e x).flume f = s.flume f := rfl
@[simp] theorem State.stack_setEngine (s : State) (e k : Nat) (x : Engine) : (s.setEngine e x).stack k = s.stack k := rfl
@[simp] theorem State.port_setEngine (s : State) (e p : Nat) (x : Engine) : (s.setEngine e x).port p = s.port p := rfl
@[simp] theorem State.job_setEngine (s : State) (e j : Nat) (x : Engine) : (s.setEngine e x).job j = s.job j := rfl
@[simp] theorem State.fp_setEngine (s : State) (e k : Nat) (x : Engine) : (s.setEngine e x).fp k = s.fp k := rfl
@[simp] theorem State.flume_setReg (s : State) (f a : Nat) (w : Word) : (s.setReg a w).flume f = s.flume f := rfl
@[simp] theorem State.reg_setFlume (s : State) (f a : Nat) (x : Flume) : (s.setFlume f x).reg a = s.reg a := rfl
@[simp] theorem State.barn_setFlume (s : State) (f b : Nat) (x : Flume) : (s.setFlume f x).barn b = s.barn b := rfl
@[simp] theorem State.engine_setFlume (s : State) (f e : Nat) (x : Flume) : (s.setFlume f x).engine e = s.engine e := rfl
@[simp] theorem State.stack_setFlume (s : State) (f k : Nat) (x : Flume) : (s.setFlume f x).stack k = s.stack k := rfl
@[simp] theorem State.port_setFlume (s : State) (f p : Nat) (x : Flume) : (s.setFlume f x).port p = s.port p := rfl
@[simp] theorem State.job_setFlume (s : State) (f j : Nat) (x : Flume) : (s.setFlume f x).job j = s.job j := rfl
@[simp] theorem State.fp_setFlume (s : State) (f k : Nat) (x : Flume) : (s.setFlume f x).fp k = s.fp k := rfl
@[simp] theorem State.stack_setReg (s : State) (k a : Nat) (w : Word) : (s.setReg a w).stack k = s.stack k := rfl
@[simp] theorem State.reg_setStack (s : State) (k a : Nat) (x : Stack) : (s.setStack k x).reg a = s.reg a := rfl
@[simp] theorem State.barn_setStack (s : State) (k b : Nat) (x : Stack) : (s.setStack k x).barn b = s.barn b := rfl
@[simp] theorem State.engine_setStack (s : State) (k e : Nat) (x : Stack) : (s.setStack k x).engine e = s.engine e := rfl
@[simp] theorem State.flume_setStack (s : State) (k f : Nat) (x : Stack) : (s.setStack k x).flume f = s.flume f := rfl
@[simp] theorem State.port_setStack (s : State) (k p : Nat) (x : Stack) : (s.setStack k x).port p = s.port p := rfl
@[simp] theorem State.job_setStack (s : State) (k j : Nat) (x : Stack) : (s.setStack k x).job j = s.job j := rfl
@[simp] theorem State.fp_setStack (s : State) (k k' : Nat) (x : Stack) : (s.setStack k x).fp k' = s.fp k' := rfl
@[simp] theorem State.port_setReg (s : State) (p a : Nat) (w : Word) : (s.setReg a w).port p = s.port p := rfl
@[simp] theorem State.reg_setPort (s : State) (p a : Nat) (x : Port) : (s.setPort p x).reg a = s.reg a := rfl
@[simp] theorem State.barn_setPort (s : State) (p b : Nat) (x : Port) : (s.setPort p x).barn b = s.barn b := rfl
@[simp] theorem State.engine_setPort (s : State) (p e : Nat) (x : Port) : (s.setPort p x).engine e = s.engine e := rfl
@[simp] theorem State.flume_setPort (s : State) (p f : Nat) (x : Port) : (s.setPort p x).flume f = s.flume f := rfl
@[simp] theorem State.stack_setPort (s : State) (p k : Nat) (x : Port) : (s.setPort p x).stack k = s.stack k := rfl
@[simp] theorem State.job_setPort (s : State) (p j : Nat) (x : Port) : (s.setPort p x).job j = s.job j := rfl
@[simp] theorem State.fp_setPort (s : State) (p k : Nat) (x : Port) : (s.setPort p x).fp k = s.fp k := rfl
@[simp] theorem State.job_setReg (s : State) (j a : Nat) (w : Word) : (s.setReg a w).job j = s.job j := rfl
@[simp] theorem State.reg_setJob (s : State) (j a : Nat) (x : Job) : (s.setJob j x).reg a = s.reg a := rfl
@[simp] theorem State.barn_setJob (s : State) (j b : Nat) (x : Job) : (s.setJob j x).barn b = s.barn b := rfl
@[simp] theorem State.engine_setJob (s : State) (j e : Nat) (x : Job) : (s.setJob j x).engine e = s.engine e := rfl
@[simp] theorem State.flume_setJob (s : State) (j f : Nat) (x : Job) : (s.setJob j x).flume f = s.flume f := rfl
@[simp] theorem State.stack_setJob (s : State) (j k : Nat) (x : Job) : (s.setJob j x).stack k = s.stack k := rfl
@[simp] theorem State.port_setJob (s : State) (j p : Nat) (x : Job) : (s.setJob j x).port p = s.port p := rfl
@[simp] theorem State.fp_setJob (s : State) (j k : Nat) (x : Job) : (s.setJob j x).fp k = s.fp k := rfl
@[simp] theorem State.fp_setReg (s : State) (k a : Nat) (w : Word) : (s.setReg a w).fp k = s.fp k := rfl
@[simp] theorem State.reg_setFp (s : State) (k a : Nat) (x : Fp) : (s.setFp k x).reg a = s.reg a := rfl
@[simp] theorem State.barn_setFp (s : State) (k b : Nat) (x : Fp) : (s.setFp k x).barn b = s.barn b := rfl
@[simp] theorem State.engine_setFp (s : State) (k e : Nat) (x : Fp) : (s.setFp k x).engine e = s.engine e := rfl
@[simp] theorem State.flume_setFp (s : State) (k f : Nat) (x : Fp) : (s.setFp k x).flume f = s.flume f := rfl
@[simp] theorem State.stack_setFp (s : State) (k k' : Nat) (x : Fp) : (s.setFp k x).stack k' = s.stack k' := rfl
@[simp] theorem State.port_setFp (s : State) (k p : Nat) (x : Fp) : (s.setFp k x).port p = s.port p := rfl
@[simp] theorem State.job_setFp (s : State) (k j : Nat) (x : Fp) : (s.setFp k x).job j = s.job j := rfl

/-! ## Units after their own update -/

/-- A unit written is read back. -/
@[simp] theorem State.barn_setBarn_same (s : State) {b : Nat} (h : b < 8) (x : Barn) : (s.setBarn b x).barn b = x := by
  simp [State.barn, State.setBarn, h]

/-- Another unit is left alone. -/
theorem State.barn_setBarn_other (s : State) {b n : Nat} (h : n ≠ b) (x : Barn) : (s.setBarn b x).barn n = s.barn n := by
  simp [State.barn, State.setBarn, h.symm]

/-- A unit written is read back. -/
@[simp] theorem State.engine_setEngine_same (s : State) {e : Nat} (h : e < 64) (x : Engine) : (s.setEngine e x).engine e = x := by
  simp [State.engine, State.setEngine, h]

/-- Another unit is left alone. -/
theorem State.engine_setEngine_other (s : State) {e n : Nat} (h : n ≠ e) (x : Engine) : (s.setEngine e x).engine n = s.engine n := by
  simp [State.engine, State.setEngine, h.symm]

/-- A unit written is read back. -/
@[simp] theorem State.flume_setFlume_same (s : State) {f : Nat} (h : f < 32) (x : Flume) : (s.setFlume f x).flume f = x := by
  simp [State.flume, State.setFlume, h]

/-- Another unit is left alone. -/
theorem State.flume_setFlume_other (s : State) {f n : Nat} (h : n ≠ f) (x : Flume) : (s.setFlume f x).flume n = s.flume n := by
  simp [State.flume, State.setFlume, h.symm]

/-- A unit written is read back. -/
@[simp] theorem State.stack_setStack_same (s : State) {k : Nat} (h : k < 16) (x : Stack) : (s.setStack k x).stack k = x := by
  simp [State.stack, State.setStack, h]

/-- Another unit is left alone. -/
theorem State.stack_setStack_other (s : State) {k n : Nat} (h : n ≠ k) (x : Stack) : (s.setStack k x).stack n = s.stack n := by
  simp [State.stack, State.setStack, h.symm]

/-- A unit written is read back. -/
@[simp] theorem State.port_setPort_same (s : State) {p : Nat} (h : p < 24) (x : Port) : (s.setPort p x).port p = x := by
  simp [State.port, State.setPort, h]

/-- Another unit is left alone. -/
theorem State.port_setPort_other (s : State) {p n : Nat} (h : n ≠ p) (x : Port) : (s.setPort p x).port n = s.port n := by
  simp [State.port, State.setPort, h.symm]

/-- A unit written is read back. -/
@[simp] theorem State.job_setJob_same (s : State) {j : Nat} (h : j < 16) (x : Job) : (s.setJob j x).job j = x := by
  simp [State.job, State.setJob, h]

/-- Another unit is left alone. -/
theorem State.job_setJob_other (s : State) {j n : Nat} (h : n ≠ j) (x : Job) : (s.setJob j x).job n = s.job n := by
  simp [State.job, State.setJob, h.symm]

/-- A unit written is read back. -/
@[simp] theorem State.fp_setFp_same (s : State) {k : Nat} (h : k < 4) (x : Fp) : (s.setFp k x).fp k = x := by
  simp [State.fp, State.setFp, h]

/-- Another unit is left alone. -/
theorem State.fp_setFp_other (s : State) {k n : Nat} (h : n ≠ k) (x : Fp) : (s.setFp k x).fp n = s.fp n := by
  simp [State.fp, State.setFp, h.symm]

/-! ## Registers after their own update -/

/-- A register written is read back. -/
theorem State.reg_setReg_same {s : State} (h : CMap.wf resetVal s.regs = true) (a : Nat) (v : Word) : (s.setReg a v).reg a = v :=
  CMap.get_set_same h a v

/-- Another register is left alone. -/
theorem State.reg_setReg_other {s : State} (h : CMap.wf resetVal s.regs = true) {a a' : Nat} (ne : a' ≠ a) (v : Word) :
    (s.setReg a v).reg a' = s.reg a' := CMap.get_set_other h ne v

/-- The registers keep their canonical form. -/
theorem State.setReg_wf {s : State} (h : CMap.wf resetVal s.regs = true) (a : Nat) (v : Word) :
    CMap.wf resetVal (s.setReg a v).regs = true := CMap.wf_set h a v

end Sys2Proof.Machine
end

