-- ==== Sys2Proof/Laws/Tags.lean ====
section
/-! SUPPORT. What the shared operations over the tag pools can do: they change the pools alone, and an access that finds its memory and
its tags is made. -/

namespace Sys2Proof.Machine

theorem State.useGrants_eq (s : State) (m : Nat) (y : TagPool) (n : Nat) : ∃ p, s.useGrants m y n = { s with pools := p } := by
  unfold State.useGrants State.modPool
  split
  · exact ⟨_, rfl⟩
  · exact ⟨s.pools, rfl⟩

/-- Using tags changes the pools and nothing else. -/
theorem State.useTags_eq (m : Nat) (l : List (TagPool × Nat)) (s : State) : ∃ p, s.useTags m l = { s with pools := p } := by
  unfold State.useTags
  induction l generalizing s with
  | nil => exact ⟨s.pools, rfl⟩
  | cons y l ih =>
    obtain ⟨p, hp⟩ := s.useGrants_eq m y.1 1
    obtain ⟨q, hq⟩ := ih { s with pools := p }
    exact ⟨q, by rw [List.foldl_cons, hp, hq]⟩

theorem State.joinPool_eq (s : State) (m : Nat) (y : TagPool) : ∃ p, s.joinPool m y = { s with pools := p } := by
  unfold State.joinPool State.modPool
  split
  · exact ⟨s.pools, rfl⟩
  · exact ⟨_, rfl⟩

/-- Waiting for tags changes the pools and nothing else. -/
theorem State.joinPools_eq (m : Nat) (l : List (TagPool × Nat)) (s : State) : ∃ p, s.joinPools m l = { s with pools := p } := by
  unfold State.joinPools
  suffices h : ∀ t : State, ∃ p, l.foldl (fun t y => if s.tagsFor m y.1 = 0 then t.joinPool m y.1 else t) t = { t with pools := p } from h s
  intro t
  induction l generalizing t with
  | nil => exact ⟨t.pools, rfl⟩
  | cons y l ih =>
    rw [List.foldl_cons]
    split
    · obtain ⟨p, hp⟩ := t.joinPool_eq m y.1
      obtain ⟨q, hq⟩ := ih { t with pools := p }
      exact ⟨q, by rw [hp, hq]⟩
    · exact ih t

/-- What accesses under tags can do: be made with the tags used, or join the pools. -/
theorem State.withPools_cases (s : State) (m : Nat) (l : List (TagPool × Nat)) (go : State → State) :
    (s.tagsReady m l = true ∧ s.withPools m l go = go (s.useTags m l))
      ∨ (s.tagsReady m l = false ∧ s.withPools m l go = s.joinPools m l) := by
  unfold State.withPools
  cases h : s.tagsReady m l <;> simp

/-- What accesses of memory can do: wait unchanged for their stack, join the pools, or be made. -/
theorem State.withAccess_cases (s : State) (m : Nat) (l : List (Nat × Nat)) (go : State → State) :
    (s.anyWaits l = true ∧ s.withAccess m l go = s)
      ∨ (s.anyWaits l = false ∧ s.tagsReady m (accPools l) = false ∧ s.withAccess m l go = s.joinPools m (accPools l))
      ∨ (s.anyWaits l = false ∧ s.tagsReady m (accPools l) = true ∧ s.withAccess m l go = go (s.useTags m (accPools l))) := by
  unfold State.withAccess
  cases h : s.anyWaits l
  · rcases s.withPools_cases m (accPools l) go with ⟨h1, h2⟩ | ⟨h1, h2⟩ <;> simp [h1, h2]
  · simp

end Sys2Proof.Machine
end

