-- ==== Sys2Proof/Tests/Slice0.lean ====
section
/-! SUPPORT. Tests: ill-formed operands are refused, every clause of a statement has a state and operands that meet its hypotheses
(`witness_<statement>…`), and a few values worked out from the rules (`test_<what>`). -/

open Sys2Proof Sys2Proof.Machine

namespace Sys2Proof.Tests

set_option Elab.async false

/-! ## Small states -/

/-- The module in RUN: processors running, the host's link up with the interface negotiated. -/
def run : State :=
  { State.reset with
    module := { Module.reset with power := .run }
    host := { HostIf.reset with linkUp := true, accMaj := 1 }
    fps := Vector.replicate 4 { Fp.reset with state := .running } }

/-- Barn 0 as `f` makes it. -/
def withBarn (f : Barn → Barn) (s : State) : State := s.modBarn 0 f

/-- Engine 0 as `f` makes it. -/
def withEng (f : Engine → Engine) (s : State) : State := s.modEngine 0 f

/-- Flume 0 as `f` makes it. -/
def withFlume (f : Flume → Flume) (s : State) : State := s.modFlume 0 f

/-- An instruction word (R155): VER 1, the opcode, and its fields. -/
def ins (op fields : Nat) : Nat := 2 ^ 124 + 2 ^ 118 * op + fields

/-- Barn 0 runs, and the word `w` stands at word 0 of its bank 0. -/
def at0 (w : Nat) : State := { withBarn (fun x => { x with phase := .run }) run with gran := [(granKey 0 0 0, BitVec.ofNat 128 w)] }

/-- The four words of a descriptor payload (R157). -/
def descWords (d P : Nat) : CMap 128 :=
  (List.range 4).map (fun i => (granKey 0 0 (4 * d + i), BitVec.ofNat 128 (ins Opc.DESC (bits (P / 2 ^ (118 * i)) 117 0))))

/-- The payload of a generator's descriptor (R159): generator, direction, queue, space, run length, base. -/
def agPayload (agn dir qsel space len base : Nat) : Nat :=
  4 * agn + 2 ^ 5 * dir + 2 ^ 7 * qsel + 2 ^ 11 * space + 2 ^ 13 * (len - 1) + 2 ^ 24 * base

/-- Barn 0 runs `w`, with descriptor 1 a group of descriptors 2 and 3 (R162). -/
def at0Move (w P2 P3 : Nat) : State :=
  { at0 w with gran := (at0 w).gran ++ (descWords 1 (1 + 4 + 2 ^ 5 * 2 + 2 ^ 16 * 3) ++ (descWords 2 P2 ++ descWords 3 P3)) }

/-- Does a command answer a next state? -/
def isNext : Host.Outcome State Fault Refusal → Bool
  | .next _ => true
  | _ => false

/-- The canonical form as a Bool, for the witnesses: `canonical_of_canon` gives the form of the statements. -/
def canon (s : State) : Bool :=
  CMap.wf resetVal s.regs && Memory.wf s.mem && Memory.wf s.memTag && Memory.wf s.crib && Memory.wf s.cribBad && Memory.wf s.loft
    && Memory.wf s.gran && Memory.wf s.granBad && Memory.wf s.glog && Memory.wf s.fswCls && Memory.wf s.fswTick
    && CMap.wf msixDefault s.host.msix && s.barns.toList.all (fun b => Memory.wf b.staging)
    && s.engines.toList.all (fun e => e.bins.toList.all (fun x => Memory.wf x.content))
    && s.fps.toList.all (fun x => Memory.wf x.log && Memory.wf x.ram && Memory.wf x.ramBad)

theorem canonical_of_canon {s : State} (h : canon s = true) : s.Canonical := by
  simp only [canon, Bool.and_eq_true] at h
  unfold State.Canonical
  tauto

/-- Every tag of some pools held by waiting masters. -/
def noTags (l : List (TagPool × Nat)) (s : State) : State :=
  { s with pools := l.map (fun x => ⟨x.1, 0, [], List.replicate 1024 (Master.barn 7)⟩) }

/-- Bytes of device memory at an address. -/
def putMem (a : Nat) (bs : List Byte) (s : State) : State := { s with mem := s.mem.wrBytes a bs }

/-- A job's record in the collective table at 4096 (R309): record 0, layer 0; all gates at BARN 0 and counter 0 with no token. -/
def collWord (kind job send pos ring tiles : Nat) : Nat :=
  kind + 2 ^ 3 * job + 2 ^ 9 * send + 2 ^ 19 * pos + 2 ^ 32 * (ring - 1) + 2 ^ 96 * tiles + 2 ^ 192 * 65536

/-- RUN with that table of one record applied. -/
def withColl (P : Nat) (s : State) : State :=
  let s := putMem 4096 (leBytes 64 P) ((s.setReg Reg.global.COLL_TABLE_LO 4096).setFld Reg.global.COLL_CTRL 9 0 1)
  { s with tally := { s.tally with colls := [BitVec.ofNat 512 P] } }

/-- A Flume descriptor's first words (R273): version 1, spaces, an element of 64 bytes, bases, and PRELOAD. -/
def flumeWord (src dst srcBase dstBase preload : Nat) : Nat :=
  1 + 2 ^ 4 * src + 2 ^ 8 * dst + 2 ^ 32 * 15 + 2 ^ 46 + 2 ^ 96 * srcBase + 2 ^ 160 * dstBase + 2 ^ 304 * preload + 2 ^ 395

/-- A descriptor whose elements go from device memory to device memory. -/
def memDesc (preload : Nat) : FDesc := fDescOf (flumeWord 1 1 8192 16384 preload)

/-- The descriptor of one element of 64 bytes between two spaces. -/
def spaceDesc (src dst : Nat) : FDesc := fDescOf (flumeWord src dst 8192 16384 0)

/-- Port 0 as `f` makes it, its link up. -/
def withPort (f : Port → Port) (s : State) : State := s.modPort 0 (fun x => f { x with link := .up, lanes := 15 })

/-- Port 0 with one received item at the front. -/
def got (x : RxItem) (s : State) : State := withPort (fun y => { y with rxQ := [x] }) s

/-- A module of job 0 with a verdict record in a ring of four (R326): slot 1 of its maps is map 0, the record's. -/
def withVerdict (pos : Nat) : State := withColl (collWord 3 0 0 pos 4 1) run

theorem next_of_isNext {o : Host.Outcome State Fault Refusal} (h : isNext o = true) : ∃ t, o = .next t := by
  cases o <;> simp_all [isNext]

/-! ## Steps -/

theorem witness_StepRunsFront :
    { run with pending := [.nop ⟨0, .clean⟩, .idcode] }.pending = .nop ⟨0, .clean⟩ :: [.idcode]
      ∧ run.pending = [] ∧ run.module.ref156 = true ∧ run.module.power = .run ∧ run.module.startDue = none := by decide +kernel

/-! ## Barn instructions -/

theorem witness_SequencerControl :
    (at0 (ins Opc.NOP 0)).Stands 0 Opc.NOP (ins Opc.NOP 0) ∧ (at0 (ins Opc.SWAPBIN 0)).Stands 0 Opc.SWAPBIN (ins Opc.SWAPBIN 0) := by
  unfold State.Stands; decide +kernel

/-- Barn 0 at `w` with `n` loops open. -/
def loopsAt (n w : Nat) : State := withBarn (fun x => { x with loops := List.replicate n ⟨1, 0, 1⟩ }) (at0 w)

/-- The deepest LOOP allowed (five open already), an ENDLOOP that goes back once more, and one on its last pass. -/
theorem witness_SequencerControl_loops :
    let l : Loop := ⟨1, 0, 1⟩
    (loopsAt 5 (ins Opc.LOOP 0)).Stands 0 Opc.LOOP (ins Opc.LOOP 0) ∧ ((loopsAt 5 (ins Opc.LOOP 0)).barn 0).loops.length < 6
      ∧ (loopsAt 1 (ins Opc.ENDLOOP 0)).Stands 0 Opc.ENDLOOP (ins Opc.ENDLOOP 0)
      ∧ ((loopsAt 1 (ins Opc.ENDLOOP 0)).barn 0).loops = [] ++ [l] ∧ l.ctr < l.cntM1 ∧ ¬ ({ l with ctr := 1 } : Loop).ctr < l.cntM1 := by
  unfold State.Stands; decide +kernel

theorem witness_SequencerControl_boundary :
    let e := ins Opc.END 0
    let y := ins Opc.YIELD (2 ^ 117)
    (at0 e).Stands 0 Opc.END e ∧ ((at0 e).barn 0).loops = [] ∧ (at0 y).Stands 0 Opc.YIELD y
      ∧ canon (loopsAt 1 e) = true ∧ (loopsAt 1 e).Stands 0 Opc.END e ∧ ((loopsAt 1 e).barn 0).loops ≠ [] := by
  unfold State.Stands; decide +kernel

/-- WAIT for five tokens of counter 3, which holds `n`. -/
def waitWord : Nat := ins Opc.WAIT (2 ^ 114 * 3 + 2 ^ 98 * 5)
def waitAt (n : Nat) : State := (at0 waitWord).setReg (Reg.barn.TOKEN 0 3) (BitVec.ofNat 32 n)

/-- A counter exactly at N, one below it, N = 0, and another instruction's command. -/
theorem witness_WaitTakesOrHolds :
    canon (waitAt 5) = true ∧ (waitAt 5).Stands 0 Opc.WAIT waitWord ∧ bits waitWord 113 98 ≠ 0
      ∧ bits waitWord 113 98 ≤ (waitAt 5).token 0 (bits waitWord 117 114) ∧ (waitAt 5).waitHolds 0 = false
      ∧ canon (waitAt 4) = true ∧ (waitAt 4).Stands 0 Opc.WAIT waitWord ∧ (waitAt 4).token 0 (bits waitWord 117 114) < bits waitWord 113 98
      ∧ canon (at0 (ins Opc.WAIT 0)) = true ∧ (at0 (ins Opc.WAIT 0)).Stands 0 Opc.WAIT (ins Opc.WAIT 0) ∧ bits (ins Opc.WAIT 0) 113 98 = 0
      ∧ 0 ≠ Opc.WAIT ∧ (issueCmds 0 .clean)[0]? = some (.nop ⟨0, .clean⟩) := by
  unfold State.Stands; decide +kernel

/-- SIGNAL to the last barn, at its widest fields. -/
def sigWord : Nat := ins Opc.SIGNAL (2 ^ 111 * 7 + 2 ^ 107 * 15 + 2 ^ 91 * 65535)
/-- One entry at the head of barn 0's signal queue: by kind. -/
def sigEntry (kind : Nat) : SigEntry := ⟨kind, 7, 15, 65535, true, true, 0, 0⟩
def sigAt (kind suppress : Nat) : State :=
  withBarn (fun x => { x with sigQ := [sigEntry kind], suppress := BitVec.ofNat 16 suppress }) run

/-- The queue with one place left; a delivery of each kind up to the top of its counter, one past it, and one suppressed. -/
theorem witness_SignalsEnterAndReach :
    let s := withBarn (fun x => { x with sigQ := List.replicate 7 (sigEntry 0) }) (at0 sigWord)
    let full := (sigAt 0 0).setReg (Reg.barn.TOKEN 7 15) 1
    (s.Stands 0 Opc.SIGNAL sigWord ∧ bits sigWord 117 116 < 3 ∧ bits sigWord 115 111 < 8 ∧ bits sigWord 106 91 ≠ 0
        ∧ (s.barn 0).sigQ.length < 8)
      ∧ (∀ k ∈ [0, 1, 2], canon (sigAt k 0) = true ∧ ((sigAt k 0).barn 0).sigQ = sigEntry k :: []
        ∧ (sigAt k 0).frozen (Master.barn 0) = false ∧ (sigAt k 0).sigReady 0 (sigEntry k) = true ∧ ((sigAt k 0).barn 0).suppress = 0)
      ∧ (sigAt 0 0).token 7 15 + 65535 ≤ 65535 ∧ (sigAt 1 0).tokin 7 + 65535 ≤ 65535
      ∧ (canon full = true ∧ (full.barn 0).sigQ = sigEntry 0 :: [] ∧ full.sigReady 0 (sigEntry 0) = true ∧ 65535 < full.token 7 15 + 65535)
      ∧ (canon (sigAt 0 1) = true ∧ (sigAt 0 1).sigReady 0 (sigEntry 0) = true ∧ ((sigAt 0 1).barn 0).suppress ≠ 0) := by
  unfold State.Stands; decide +kernel

/-- FALLOW of 600 µs, with slices deferred, or a row of stack 1 to spare. -/
def fallowWord : Nat := ins Opc.FALLOW (2 ^ 102 * 600)
def fallowAt (l : List SliceReq) (row : Bool) : State :=
  { (at0 fallowWord).modStack 1 (fun x => { x with spareQ := if row then [(0, false)] else [] }) with slicePend := l }

theorem witness_FallowAndSlices :
    (∀ row, (fallowAt [] row).Stands 0 Opc.FALLOW fallowWord ∧ (fallowAt [] row).barnDone 0 = true
        ∧ (fallowAt [] row).deferredFor 0 (bits fallowWord 117 102) = none ∧ (fallowAt [] row).spareWaits 0 = row)
      ∧ bits fallowWord 117 102 ≠ 0 ∧ sliceBudget 0x9 ≤ bits fallowWord 117 102
      ∧ ((fallowAt [⟨1, 0⟩] false).Stands 0 Opc.FALLOW fallowWord ∧ (fallowAt [⟨1, 0⟩] false).barnDone 0 = true
        ∧ (fallowAt [⟨1, 0⟩] false).deferredFor 0 (bits fallowWord 117 102) = some ⟨1, 0⟩) := by
  unfold State.Stands; decide +kernel

/-- A LINK slice of port 23, `n` ticks old, shown in SLICE_STATUS. -/
def linkSlice : SliceRun := ⟨⟨0xB, 23⟩, 0, 0, false, false⟩
def slicing (n : Nat) : State := { (run.setSliceStatus ⟨0xB, 23⟩ 2) with sliceRun := [linkSlice], time := n }

/-- A slice begins, ends, and one past its budget is stopped. -/
theorem witness_FallowAndSlices_slices :
    let v : Word := 0x80000001#32
    let r : SliceReq := ⟨v.field 3 0, v.field 27 4⟩
    (canon run = true ∧ run.takesClean .mgmt Reg.gleaner.SLICE_REQ = true ∧ Writer.mgmt ∈ [Writer.mgmt, .fp 0, .fp 2]
      ∧ bit v.toNat 31 = true
        ∧ sliceBudget r.code ≠ 0 ∧ r.code ≠ 0x9 ∧ r.fits = true ∧ run.regionGone r = false ∧ run.tally.live = false
        ∧ r ∉ run.slicePend
        ∧ run.sliceReady r = true ∧ (run.barn r.home).phase = .idle ∧ (run.barn r.home).fallow = none)
      ∧ (∀ n ∈ [0, 1000000], canon (slicing n) = true ∧ (slicing n).sliceNamed 0xB 23 = some linkSlice ∧ (slicing n).granWaits = []
        ∧ (slicing n).regionActs = [] ∧ ((slicing n).barn linkSlice.req.home).abortHeld = none
        ∧ ((slicing n).barn linkSlice.req.home).swapPending = false ∧ (slicing n).sliceShown linkSlice.req = true)
      ∧ (slicing 0).sliceLate linkSlice = false ∧ (slicing 0).linkClean linkSlice = true ∧ (slicing 1000000).sliceLate linkSlice = true := by
  decide +kernel

/-- OPX and OPXW on empty bins, no ARM and no TILE: the widest form of each. -/
def opxWord (wide : Bool) : Nat :=
  if wide then ins Opc.OPXW (2 ^ 116 * 3 + 2 ^ 110 + 2 ^ 90 + 2 ^ 28 * noDesc + 2 ^ 17 * noDesc)
  else ins Opc.OPX (2 ^ 110 + 2 ^ 90 + 2 ^ 28 * noDesc + 2 ^ 17 * noDesc)

theorem witness_ArrayQueuesFill_opx :
    let z : TileOff := ⟨0, 0, 0, 0, 0⟩
    ∀ wide : Bool,
      let w := opxWord wide
      let s := at0 w
      let x := s.barn 0
      let f := opxFields w
      s.Stands 0 (if wide then Opc.OPXW else Opc.OPX) w ∧ opxRefused f wide (zeroStart f.zs x.loops) = false
        ∧ (∀ e, e ∈ s.barnEngines 0 → (coordsOf s e f.mbatch z).slot < 56)
        ∧ s.binRefusal 0 (if f.complex then [x.phys 0, x.phys 1] else [x.phys f.bin]) (zeroStart f.zs x.loops || f.reload) f.form f.carried
            = none
        ∧ s.room 0 (fun y => y.arrQ.length) = true ∧ f.spill = false ∧ s.armRoom 0 [] = true ∧ s.barnEngines 0 ≠ [] := by
  unfold State.Stands; decide +kernel

theorem witness_ArrayQueuesFill_arms (s : State) (b k : Nat) (c : List Nat) :
    armList s b k noDesc = .ok [] ∧ tileOffsets s b k noDesc c = .ok ⟨0, 0, 0, 0, 0⟩ := ⟨rfl, rfl⟩

def binwrWord : Nat := ins Opc.BINWR (2 ^ 100 * noDesc)
def binwrAt : State := withEng (fun x => { x with arrQ := List.replicate 3 (binwrOf Barn.reset 1 0 0) }) (at0 binwrWord)

theorem witness_ArrayQueuesFill_binwr :
    binwrAt.Stands 0 Opc.BINWR binwrWord ∧ bits binwrWord 110 100 = noDesc
      ∧ binwrAt.binRefusal 0 [(binwrAt.barn 0).phys (bits binwrWord 117 117)] true (bits binwrWord 113 112) (bit binwrWord 111) = none
      ∧ binwrAt.room 0 (fun y => y.arrQ.length) = true ∧ binwrAt.armRoom 0 [] = true := by
  unfold State.Stands; decide +kernel

theorem witness_WinnowQueueOps :
    let r := ins Opc.BINRD (2 ^ 104 * noDesc)
    let c0 := ins Opc.WCFG 0
    let c1 := ins Opc.WCFG (2 ^ 117)
    let d := ins Opc.DRAIN (2 ^ 78 * noDesc + 2 ^ 67 * noDesc)
    ((at0 r).room 0 (fun y => y.winQ.length) = true ∧ (at0 r).Stands 0 Opc.BINRD r ∧ bits r 114 104 = noDesc ∧ (at0 r).armRoom 0 [] = true)
      ∧ ((at0 c0).Stands 0 Opc.WCFG c0 ∧ wcfgReserved c0 = false ∧ bit c0 117 = false)
      ∧ ((at0 c1).Stands 0 Opc.WCFG c1 ∧ wcfgReserved c1 = false ∧ bit c1 117 = true)
      ∧ ((at0 d).Stands 0 Opc.DRAIN d ∧ bits d 88 78 = noDesc ∧ bits d 77 67 = noDesc ∧ (at0 d).armRoom 0 [] = true
        ∧ ∀ e, e ∈ (at0 d).barnEngines 0 → (coordsOf (at0 d) e (bits d 100 89) ⟨0, 0, 0, 0, 0⟩).slot < 56) := by
  unfold State.Stands; decide +kernel

/-- A descriptor group, as the movement witnesses place it, arms both generators. -/
def pair (dirA spA dirB spB q : Nat) : List AgDesc :=
  ((agDecode (agPayload q dirA 0 spA 64 0)).toList ++ (agDecode (agPayload 5 dirB q spB 64 0)).toList)

/-- Does an ARM field name exactly these descriptors? -/
def armsAre (s : State) (arm : Nat) (ds : List AgDesc) : Bool :=
  match armList s 0 0 arm with
  | .ok l => decide (l = ds)
  | .error _ => false

theorem armList_of_armsAre {s : State} {arm : Nat} {ds : List AgDesc} (h : armsAre s arm ds = true) : armList s 0 0 arm = .ok ds := by
  unfold armsAre at h; split at h <;> simp_all

theorem witness_MovementEntersQueues_fill :
    let w := ins Opc.FILL (2 ^ 115 * 3 + 2 ^ 104)
    let s := at0Move w (agPayload 3 0 0 1 64 0) (agPayload 5 1 3 0 64 0)
    s.Stands 0 Opc.FILL w ∧ armsAre s (moveArm .fill w) (pair 0 1 1 0 3) = true ∧ (pair 0 1 1 0 3).length = 2
      ∧ s.room 0 (fun y => y.movQ.length) = true ∧ s.armRoom 0 (pair 0 1 1 0 3) = true
      ∧ movePair (pair 0 1 1 0 3) (bits w 117 115) = some ((pair 0 1 1 0 3).getD 0 ⟨0, 0, 0, 0, 0, 0, 0, []⟩,
          (pair 0 1 1 0 3).getD 1 ⟨0, 0, 0, 0, 0, 0, 0, []⟩)
      ∧ (pair 0 1 1 0 3).map (fun d => (d.space, d.total)) = [(1, 1), (0, 1)] := by
  unfold State.Stands; decide +kernel

theorem witness_MovementEntersQueues_spill :
    let w := ins Opc.SPILL (2 ^ 115 * 3 + 2 ^ 104)
    let s := at0Move w (agPayload 3 0 0 0 64 0) (agPayload 5 1 3 2 64 0)
    s.Stands 0 Opc.SPILL w ∧ armsAre s (moveArm .spill w) (pair 0 0 1 2 3) = true ∧ (pair 0 0 1 2 3).length = 2
      ∧ s.room 0 (fun y => y.movQ.length) = true ∧ s.armRoom 0 (pair 0 0 1 2 3) = true
      ∧ (movePair (pair 0 0 1 2 3) (bits w 117 115)).isSome = true ∧ (pair 0 0 1 2 3).map (fun d => (d.space, d.total)) = [(0, 1), (2, 1)] := by
  unfold State.Stands; decide +kernel

/-- SENDW at the last port, 23. -/
theorem witness_MovementEntersQueues_sendw :
    let w := ins Opc.SENDW (2 ^ 115 * 3 + 2 ^ 110 * 23 + 2 ^ 87 * 2)
    let s := at0Move w (agPayload 3 0 0 0 64 0) 0
    let ds := (agDecode (agPayload 3 0 0 0 64 0)).toList
    s.Stands 0 Opc.SENDW w ∧ armsAre s (moveArm .sendw w) ds = true ∧ bits w 114 110 < 24
      ∧ ds.map (fun d => (d.dir, d.agn, d.space)) = [(0, bits w 117 115, 0)] ∧ s.room 0 (fun y => y.movQ.length) = true := by
  unfold State.Stands; decide +kernel

/-- MILLOP of the last operation and type, 3 and 3. -/
theorem witness_MovementEntersQueues_millop :
    let w := ins Opc.MILLOP (2 ^ 115 * 3 + 2 ^ 110 * 3 + 2 ^ 107 * 3 + 2 ^ 96)
    let s := at0Move w (agPayload 3 0 0 0 64 0) (agPayload 5 2 3 2 64 0)
    s.Stands 0 Opc.MILLOP w ∧ armsAre s (moveArm .millop w) (pair 0 0 2 2 3) = true ∧ bits w 109 107 < 4 ∧ bits w 112 110 < 4
      ∧ (pair 0 0 2 2 3).map (fun d => (d.dir, d.agn, d.space, d.total, d.len)) = [(0, 3, 0, 1, 64), (2, 5, 2, 1, 64)]
      ∧ s.room 0 (fun y => y.movQ.length) = true := by
  unfold State.Stands; decide +kernel

/-- A word of version 0, and the first reserved opcode, 0x13, at the last word of the bank. -/
def reservedAt : State :=
  { withBarn (fun x => { x with pc := 6143 }) (at0 0) with gran := [(granKey 0 0 6143, BitVec.ofNat 128 (ins 0x13 0))] }

theorem witness_ReservedWordRefused :
    (∀ s ∈ [at0 (2 ^ 125), reservedAt], canon s = true ∧ s.canIssue 0 = true ∧ (s.barn 0).pc.toNat < bankWords (s.barn 0).bank
        ∧ s.granWordBad (granKey 0 (s.barn 0).bank (s.barn 0).pc.toNat) = false)
      ∧ wordVer ((at0 (2 ^ 125)).gran.rd (granKey 0 0 0)).toNat ≠ 1
      ∧ 0x12 < wordOp (reservedAt.gran.rd (granKey 0 (reservedAt.barn 0).bank (reservedAt.barn 0).pc.toNat)).toNat
      ∧ (reservedAt.barn 0).handed = false ∧ reservedAt.sliceAt 0 = false := by
  decide +kernel

/-- A word that Stands, and its three commands; the barn has handed nothing on and no slice runs. -/
theorem witness_ReservedWordRefused_code :
    let w := ins Opc.NOP 0
    canon (at0 w) = true ∧ (at0 w).Stands 0 Opc.NOP w ∧ (issueCmds 0 .clean)[Opc.NOP]? = some (.nop ⟨0, .clean⟩)
      ∧ (issueCmds 0 (.corrected 7))[Opc.NOP]? = some (.nop ⟨0, .corrected 7⟩)
      ∧ (issueCmds 0 .uncorrectable)[Opc.NOP]? = some (.nop ⟨0, .uncorrectable⟩)
      ∧ ((at0 w).barn 0).handed = false ∧ (at0 w).sliceAt 0 = false := by
  unfold State.Stands; decide +kernel

theorem witness_BarnAndEngineFrames :
    isNext (exec (.nop ⟨0, .clean⟩) (at0 (ins Opc.NOP 0))) = true ∧ isNext (exec (.arrayStep ⟨0, some 8⟩) run) = true := by decide +kernel

/-! ## Engine steps -/

/-- An array operation as OPX makes it: FP32 operands, logical bin 0, four steps; at step `t`. -/
def arrOp (t : Nat) (zs : Bool) : ArrOp :=
  { arrOpOf Barn.reset (opxFields (ins Opc.OPX (2 ^ 110 + 2 ^ 90 + 2 ^ 67 * 3))) zs ⟨0, 0, 0, 0, 0⟩ with bin0 := 0, bin1 := 0, t := t }

/-- Engine 0 with that operation and both operands there; its bin at one step below its limit. -/
def arrAt (o : ArrOp) : State :=
  let d : IqEntry := ⟨List.replicate 512 1, [], 0, true⟩
  withEng (fun x => { (x.modBin 0 (fun y => { y with steps := 1048575 })) with
    arrQ := [o], iq := (x.iq.setIfInBounds 0 [d]).setIfInBounds 1 [d] }) run

/-- Does a side yield its vector? -/
def sideOk : SideOut → Bool
  | .ok _ _ _ _ => true
  | _ => false

theorem exists_of_sideOk {o : SideOut} (h : sideOk o = true) : ∃ a x c u, o = .ok a x c u := by
  cases o <;> simp_all [sideOk]

/-- The engine after its column side is taken. -/
def afterCol (o : ArrOp) (s : State) : Engine :=
  match takeSide o true s.freeIx (s.engine 0).absorb with
  | .ok _ x _ _ => x
  | _ => s.engine 0

/-- First and last but one step of the operation, from a zero start or accumulating. -/
theorem witness_ArrayRuns_product :
    ∀ o ∈ [arrOp 0 true, arrOp 0 false, { arrOp 0 true with reloadSlot := some 55 }, { arrOp 2 true with started := true }],
      let s := arrAt o
      (s.engine 0).arrQ = [o] ∧ o.isBinwr = false ∧ o.bin0 < 2 ∧ o.bin1 < 2 ∧ o.pass = 0 ∧ s.sliceHoldsArray 0 = false
        ∧ ((s.engine 0).bin o.binOf).steps < 1048576 ∧ o.t + 1 < o.steps ∧ s.drawFault o.cc true = none
        ∧ (s.engine 0).absorb.feederFault = none
        ∧ sideOk (takeSide o true s.freeIx (s.engine 0).absorb) = true ∧ sideOk (takeSide o false s.freeIx (afterCol o s)) = true := by
  decide +kernel

def binwrRow : State :=
  withEng (fun x => { x with
    arrQ := [{ binwrOf Barn.reset 1 2 0 with started := true, t := 126 }]
    iq := x.iq.setIfInBounds 2 [⟨List.replicate 576 1, [], 0, true⟩] }) run

theorem witness_ArrayRuns_binwr :
    let o := { binwrOf Barn.reset 1 2 0 with started := true, t := 126 }
    (binwrRow.engine 0).arrQ = o :: [] ∧ o.isBinwr = true ∧ o.bin0 < 2 ∧ o.reloadSlot = none ∧ binwrRow.sliceHoldsArray 0 = false
      ∧ o.t + 1 < o.steps ∧ (binwrRow.engine 0).iqHead o.colq = some ⟨List.replicate 576 1, [], 0, true⟩ := by decide +kernel

def tokenAt : State := withEng (fun x => { (x.modBin 1 (fun y => { y with state := .settling })) with settle := [(1, 0, true)] }) run

theorem witness_ArrayRuns_token :
    (tokenAt.engine 0).settle = [((1 : Fin 2).val, 0, true)] ∧ ((tokenAt.engine 0).bin 1).state = .settling := by decide +kernel

/-- A drain-side operation at the head of the queue, its bin HELD. -/
def winAt (o : WinOp) : State := withEng (fun x => { (x.modBin 1 (fun y => { y with state := .held })) with winQ := [o] }) run

/-- BINRD, and a DRAIN to memory with no bias, activation or mask. -/
theorem witness_WinnowRuns_start :
    ∀ k ∈ [WinKind.binrd, .drain],
      let o := winOpOf Barn.reset k 1
      let c := wcfgOf o.wcfg0 o.wcfg1
      let s := winAt o
      s.winnowHeld 0 = false ∧ (s.engine 0).drain = none ∧ dropWcfg (s.engine 0).winQ = o :: [] ∧ o.bin < 2
        ∧ ((s.engine 0).bin o.bin).state = .held ∧ o.kind = k
        ∧ (k = .drain → s.drainOk 0 o = true ∧ c.tkind ≠ 2 ∧ c.bias = 0 ∧ o.tload = false ∧ c.dmask = false)
        ∧ (s.engine 0).iq.toList.all (fun l => l.isEmpty) = true := by decide +kernel

/-- A drain that waits for the last of its table's 4,224 bytes, TLOAD 1 from queue 7. -/
def tableOp : WinOp := { winOpOf Barn.reset .drain 1 with tload := true, wcfg0 := BitVec.ofNat 118 (2 ^ 92) }
def tableAt : State :=
  withEng (fun x => { x with
    drain := some ⟨tableOp, false, List.replicate 4160 0, [], [], [], [], 0, [], none⟩
    iq := x.iq.setIfInBounds (wcfgOf tableOp.wcfg0 tableOp.wcfg1).tabq [⟨List.replicate 64 0, [], 0, true⟩] }) run

theorem witness_WinnowRuns_table :
    let c := wcfgOf tableOp.wcfg0 tableOp.wcfg1
    let tab : List Byte := List.replicate 4160 0
    tableAt.winnowHeld 0 = false ∧ (tableAt.engine 0).drain = some ⟨tableOp, false, tab, [], [], [], [], 0, [], none⟩
      ∧ (tableOp.tload = true ∧ (c.tload = 1 ∨ c.tload = 2) ∧ c.bias = 0 ∧ c.dmask = false ∧ c.tkind ≠ 2)
      ∧ (tableAt.engine 0).iqHead c.tabq = some ⟨List.replicate 64 0, [], 0, true⟩ ∧ tab.length < 4224
      ∧ 4224 ≤ (tab ++ List.replicate 64 0).length ∧ (byteAt (tab ++ List.replicate 64 0) 8).toNat ≤ 2
      ∧ (byteAt (tab ++ List.replicate 64 0) 9).toNat ≤ 2 :=
  ⟨by decide +kernel, rfl, by decide +kernel, rfl, by rw [List.length_replicate]; decide,
    by rw [List.length_append, List.length_replicate, List.length_replicate], by decide +kernel, by decide +kernel⟩

/-- A drain that has begun, at row `row`. -/
def drainRun (o : WinOp) (row : Nat) : DrainRun := ⟨o, true, [], [], [], [], [], row, List.replicate 128 0, none⟩
/-- WCFG to memory; to Weir as floating-point rows, port 0; and with a tap to queue 1. -/
def drainOp (w0 w1 : Nat) : WinOp := { winOpOf Barn.reset .drain 1 with wcfg0 := BitVec.ofNat 118 w0, wcfg1 := BitVec.ofNat 118 w1 }
def rowAt (o : WinOp) (row : Nat) : State :=
  withEng (fun x => { (x.modBin 1 (fun y => ({ y with state := .draining } : Bin).setSums Sums.zero)) with
    drain := some (drainRun o row), holds := [⟨0, 0, 0, 0, 0, 0, false, [], false⟩] }) run

theorem witness_WinnowRuns_rows :
    let o := winOpOf Barn.reset .binrd 1
    let y := ((rowAt o 127).engine 0).bin 1
    (∀ row ∈ [0, 126, 127], (rowAt o row).winnowHeld 0 = false ∧ ((rowAt o row).engine 0).drain = some (drainRun o row) ∧ o.kind ≠ .drain
        ∧ ((rowAt o row).engine 0).oqLen o.outq < 4)
      ∧ o.bin = 1 ∧ rowFails y 127 (binRow y.content 127) = false
      ∧ colFails y (addColumns (drainRun o 127).colSums (binRow y.content 127)) = none
      ∧ (rowAt o 127).regBit (Reg.engine.page 0 + Reg.header.ERR_INJECT) 0 = false
      ∧ (rowAt o 127).regBit (Reg.engine.page 0 + Reg.header.ERR_INJECT) 1 = false := by decide +kernel

theorem witness_WinnowRuns_drain :
    let o := drainOp 0 0
    let s := rowAt o 5
    let c := wcfgOf o.wcfg0 o.wcfg1
    let key : DrainKey := { seed := s.seed false, layer := 0, mb := 0, step := s.stepNo, row0 := 0, col0 := 0 }
    s.winnowHeld 0 = false ∧ (s.engine 0).drain = some (drainRun o 5) ∧ o.kind = .drain
      ∧ (c.rnd = true ∨ c.dropT ≠ 0 → s.drawFault o.cc true = none) ∧ c.tkind ≠ 2 ∧ c.tap = 0
      ∧ c.act = 0 ∧ (s.engine 0).oqLen c.outq < 4
      ∧ (drainRow c key 0 0 0 5 none none [] [] [] [] (binRow ((s.engine 0).bin 1).content 5)).isSome = true := by decide +kernel

theorem witness_WinnowRuns_spill :
    let o := winOpOf Barn.reset .spill 1
    (winAt o).winnowHeld 0 = false ∧ ((winAt o).engine 0).drain = none ∧ dropWcfg ((winAt o).engine 0).winQ = o :: [] ∧ o.kind = .spill
      ∧ o.bin < 2 ∧ (((winAt o).engine 0).bin o.bin).state = .held := by
  decide +kernel

/-- A generator's descriptor: runs of 64 bytes from `base` of a space. -/
def genDesc (dir q space base : Nat) : AgDesc := (agDecode (agPayload 3 dir q space 64 base)).getD ⟨0, 0, 0, 0, 0, 0, 0, []⟩
def genEntry : IqEntry := ⟨List.replicate 64 1, [], 0, true⟩
def genArm (dir q space base : Nat) : Arming := ⟨genDesc dir q space base, [], 0, 0⟩

/-- Generator 3 armed, queue `n` with `k` entries, output queue 0 with one. -/
def genAt (a : Arming) (n k : Nat) (mov : List MovOp) : State :=
  withEng (fun x => { x with
    gens := x.gens.setIfInBounds 3 ⟨some a, none⟩, iq := x.iq.setIfInBounds n (List.replicate k genEntry), movQ := mov
    oq := x.oq.setIfInBounds 0 [⟨List.replicate 64 1, [], false, 0⟩] }) run

/-- A run at the top of the Crib, in the Loft, and at the top of the Lake; the queue with one place left. -/
theorem witness_GeneratorsRun_read :
    ∀ x ∈ [(0, 2 ^ 22 - 64), (1, 2 ^ 25 - 64), (2, 2 ^ 42 - 64)],
      let a := genArm 0 0 x.1 x.2
      let s := genAt a 3 3 []
      s.runOf 0 3 = some (a, (x.2 : Int)) ∧ a.d.dir = 0 ∧ a.d.space = x.1 ∧ (s.engine 0).iqLen 3 < 4
        ∧ (s.engine 0).runBad 3 a x.2 = false ∧ s.runWaits 0 a.d.space x.2 a.d.len = false ∧ s.fatal = false ∧ s.injectCredit = false
        ∧ s.tagsReady (Master.barn 0) (memPools x.2 a.d.len) = true
        ∧ (x.1 = 2 → (s.memRead (Master.barn 0) x.2 a.d.len).2.isSome = true) := by decide +kernel

/-- Writes to the three spaces, from an input queue and from an output queue. -/
theorem witness_GeneratorsRun_write :
    ∀ x ∈ [(0, 2 ^ 22 - 64), (1, 2 ^ 25 - 64), (2, 2 ^ 42 - 64)], ∀ q ∈ [7, 8],
      let a := genArm 1 q x.1 x.2
      let s := genAt a 7 1 []
      s.runOf 0 3 = some (a, (x.2 : Int)) ∧ a.d.dir = 1 ∧ genEntry.data.length = a.d.len ∧ a.runOk x.2 = true
        ∧ s.runWaits 0 a.d.space x.2 a.d.len = false ∧ (s.engine 0).iqHead 7 = some genEntry ∧ (s.engine 0).movesNow a.seq = true
        ∧ (s.engine 0).oq[0]? = some (⟨List.replicate 64 1, [], false, 0⟩ :: []) ∧ s.fatal = false ∧ s.injectCredit = false
        ∧ s.tagsReady (Master.barn 0) (memPools x.2 a.d.len) = true
        ∧ (x.1 = 2 → (s.memWriteMasked (Master.barn 0) x.2 genEntry.data []).2 = true) := by decide +kernel

/-- The address generator of a MILLOP that adds INT32 elements. -/
def millAt : State := genAt (genArm 2 3 2 4096) 3 1 [⟨.millop, 0, 3, 0, 0, 2, [3]⟩]

theorem witness_GeneratorsRun_mill :
    let a := genArm 2 3 2 4096
    let o : MovOp := ⟨.millop, 0, 3, 0, 0, 2, [3]⟩
    millAt.runOf 0 3 = some (a, 4096) ∧ a.d.dir = 2 ∧ (millAt.engine 0).movQ = o :: [] ∧ (millAt.engine 0).iqHead o.q = some genEntry
      ∧ genEntry.data.length = a.d.len ∧ millCode o.mop = some (0, 2) ∧ a.runOk 4096 = true ∧ millAligned 2 4096 a.d.len = true
      ∧ millAt.runWaits 0 2 4096 a.d.len = false ∧ millAt.sliceHoldsMill (addrStack 4096) = false ∧ millAt.fatal = false
      ∧ millAt.injectCredit = false
      ∧ millAt.tagsReady (Master.barn 0) (memPools 4096 a.d.len) = true
      ∧ (millAt.millRun (Master.barn 0) 0 2 4096 genEntry.data).2 = true := by decide +kernel

theorem witness_MovementAndHandover_done :
    let o : MovOp := ⟨.fill, 0, 3, 0, 0, 0, [3]⟩
    let s := withEng (fun x => { x with movQ := [o] }) run
    let q := withEng (fun x => { x with movQ := [o], iq := x.iq.setIfInBounds 3 [⟨[], [], 0, true⟩] }) run
    (s.engine 0).movQ = [o] ∧ (s.engine 0).moveDone o = true ∧ (q.engine 0).movQ = [o] ∧ (q.engine 0).moveDone o = false := by
  decide +kernel

/-- A row of zeros as the port takes it. -/
def zeroRow : List Byte := blockRow (List.replicate 4 ⟨127, 0, 0, false, false, 0, List.replicate 32 (some 0)⟩)
/-- Tile 0 of one at a position of a ring of four, released; its owner is position 0. -/
def tileHold : HoldBuf := ⟨0, 0, 1, 0, 0, 0, false, List.replicate 128 zeroRow, true⟩
def tileAt (pos : Nat) : State := withEng (fun x => { x with holds := [tileHold] }) (withColl (collWord 0 0 0 pos 4 1) run)

/-- Position 2, to which others have contributed before, and position 1, the first to contribute. -/
theorem witness_MovementAndHandover_tile :
    ∀ pos ∈ [1, 2],
      let s := tileAt pos
      let r := s.collRec 0
      (s.engine 0).holds.find? (fun h => h.released) = some tileHold ∧ s.tileRec (s.barnJob 0 tileHold.cc) tileHold = some (0, r)
        ∧ r.job = s.barnJob 0 tileHold.cc ∧ r.tileOf tileHold = ((0 : Nat) : Int) ∧ 0 < r.tiles ∧ s.jobRuns (s.barnJob 0 tileHold.cc) = true
        ∧ (s.prog 0).nextTile = 0 ∧ s.servesRec 0 r = true ∧ s.sliceHoldsPort tileHold.port = false
        ∧ s.up = true ∧ s.fatal = false ∧ tileHold.port < 24 ∧ r.localGood zeroRow = true
        ∧ (r.first 0 = decide (pos = 1)) ∧ (pos = 1 → r.owner 0 ≠ r.pos) := by decide +kernel

/-- END and YIELD at the last word of a bank, with and without a waiting swap. -/
def boundaryAt (e swap : Bool) : State :=
  withBarn (fun x => { x with phase := .run, swapPending := swap, boundary := some ⟨e, false, 6143, false, false⟩ }) run

theorem witness_SegmentsPassStartReplay_boundary :
    ∀ e ∈ [true, false], ∀ swap ∈ [true, false],
      let y : Boundary := ⟨e, false, 6143, false, false⟩
      let s := boundaryAt e swap
      let x := s.barn 0
      (x.boundary = some y ∧ s.frozen (Master.barn 0) = false ∧ s.barnDone 0 = true ∧ s.queuesClear 0 = true ∧ y.held = false)
        ∧ y.stale = false ∧ y.cc = false ∧ (s.span 0).live = false ∧ s.tally.state = .idle ∧ x.ccSave = none ∧ x.swapPending = swap
        ∧ x.offline = false ∧ x.offApplied = false ∧ x.pageHalt = false ∧ (∀ i, i < 8 → (s.engine (8 * 0 + i)).offline = false)
        ∧ canon s = true ∧ s.swapHeld 0 = false ∧ (s.span 0).fromNew = false := by
  decide +kernel

/-- A commit of a register of barn 0's page waits. -/
def commitAt (s : State) : State :=
  { s with tally := { s.tally with state := .committing, shadows := [⟨Reg.barn.SEQ_CTRL 0, 0, true⟩] } }

/-- GO and the Bell, to an idle barn and to one in its catch crop; the last entry of the interrupt table; barn 0 held by a commit. -/
theorem witness_SegmentsPassStartReplay_start :
    ∀ s ∈ [run, withBarn (fun x => { x with phase := .cc }) run, commitAt run],
      ((s.span 0).live = false ∧ (0 : BitVec 16).toNat = 4 * (0 : BarnId) ∧ s.takesClean .host (Reg.barn.SEQ_CTRL 0) = true)
        ∧ s.bellOpen = true ∧ s.sluiceArmed .host = false ∧ s.frozen (Master.barn 0) = false ∧ (s.barn 0).offApplied = false
        ∧ s.up = true ∧ canon s = true ∧ (0x83FC : BitVec 16).toNat % 4 = 0 ∧ 0x8000 ≤ (0x83FC : BitVec 16).toNat
        ∧ (0x83FC : BitVec 16).toNat < 0x8400 ∧ ((s.barn 0).phase = .idle ∨ (s.barn 0).phase ≠ .idle)
        ∧ s.commitHolds 0 = decide (s.tally.state = .committing) := by decide +kernel

theorem witness_SegmentsPassStartReplay_replay :
    ∀ s ∈ [withBarn (fun x => { x with pendingRestart := true }) run, commitAt (withBarn (fun x => { x with pendingRestart := true }) run)],
    s.commitHolds 0 = decide (s.tally.state = .committing) ∧ (s.takesClean (.fp 0) (Reg.barn.SEG_RESTART 0) = true
      ∧ (s.span 0).live = false ∧ (s.span 0).voided = false)
      ∧ (s.barn 0).pendingRestart = true ∧ s.frozen (Master.barn 0) = false ∧ (s.barn 0).phase = .idle ∧ (s.barn 0).offApplied = false
      ∧ run.takesClean (.fp 0) (Reg.barn.SEG_RESTART 0) = true ∧ (run.barn 0).pendingRestart = false := by decide +kernel

/-- Barn 0 at its step signal is all that the boundary waits for; engine 1 is retired. -/
def stepAt : State := (run.setReg Reg.global.STEP_SIG (0x100000#32)).modEngine 1 (fun x => { x with retired := true })

theorem witness_StepsAdvanceAndRestart_boundary :
    (canon stepAt = true ∧ stepAt.up = true ∧ stepAt.fatal = false ∧ stepAt.stepReady = true ∧ stepAt.tally.stepHeld = false)
      ∧ stepAt.tally.state = .idle ∧ stepAt.tally.stepCommitted = false ∧ stepAt.regBit Reg.global.CKPT_REC_HI 31 = false
      ∧ (stepAt.engine 1).retired = true ∧ (stepAt.engine 0).retired = false := by decide +kernel

/-- Barn 0 has a segment to repeat, barn 1 none. -/
def abortedAt : State :=
  (withBarn (fun x => { x with stepAborted := true, pendingRestart := true }) run).modBarn 1 (fun x => { x with stepAborted := true })

theorem witness_StepsAdvanceAndRestart_restart :
    let s := abortedAt
    (s.up = true ∧ s.fatal = false ∧ s.fpbRuns = true ∧ s.liveJobs = [] ∧ (∀ j, j < 16 → (s.job j).aborted = false
      ∧ (s.job j).late = false))
      ∧ (∀ k, k < 16 → s.selfRefresh k = false) ∧ s.springBad = [] ∧ (∀ f, f < 32 → (s.flume f).stepAborted = false)
      ∧ ((s.barn 0).stepAborted = true ∧ (s.barn 0).pendingRestart = true ∧ s.frozen (Master.barn 0) = false ∧ (s.barn 0).phase = .idle
        ∧ (s.barn 0).offApplied = false ∧ s.commitHolds 0 = false)
      ∧ (s.barn 1).stepAborted = true ∧ (s.barn 1).pendingRestart = false := by decide +kernel

/-! ## The Tally -/

/-- An open transaction of the host's. -/
def opened (l : List Shadow) : State := { run with tally := { Tally.reset with state := .opened, owner := Writer.host.id, shadows := l } }

/-- A commit under way. -/
def committing (l : List Shadow) : State := { run with tally := { Tally.reset with state := .committing, owner := Writer.host.id, shadows := l } }

/-- The table of shadows with `n` registers. -/
def filled (n : Nat) : State := { opened [] with tally := { (opened []).tally with nShadows := n } }

theorem witness_TallyTransactions :
    ((run.takesClean .host Reg.tally.TX_CTRL = true ∧ run.tally.state = .idle)
      ∧ ((opened []).takesClean .host Reg.tally.TX_CTRL = true ∧ (opened []).tally.state = .opened ∧ (opened []).tally.owner = Writer.host.id)
      ∧ (canon (opened []) = true ∧ (opened []).takesClean (.fp 0) Reg.tally.TX_CTRL = true
        ∧ (opened []).tally.owner ≠ (Writer.fp 0).id)) := by
  decide +kernel

/-- A write with a place left, one with ERR_INJECT [0] set, one refused by its own check, a 4,097th register, and one outside a
transaction. -/
theorem witness_TallyTransactions_write :
    let a : BitVec 26 := BitVec.ofNat 26 Reg.gauge.POL_PCAP
    let m : BitVec 26 := BitVec.ofNat 26 Reg.gauge.POL_VMAX
    (∀ s ∈ [filled 4095, filled 4096, run, (filled 4095).setReg (Reg.tally.page + Reg.header.ERR_INJECT) 1],
        canon s = true ∧ s.takesClean .host a.toNat = true ∧ rwsMask a.toNat ≠ 0 ∧ s.absentPage a.toNat = false
        ∧ s.rwsRefusal .host a.toNat 1 = none ∧ s.shadowed a.toNat = false)
      ∧ (filled 4095).tally.state = .opened ∧ (filled 4095).tally.owner = Writer.host.id ∧ (filled 4095).tally.nShadows < 4096
      ∧ 4096 ≤ (filled 4096).tally.nShadows ∧ run.tally.state ≠ .opened
      ∧ ((opened []).takesClean .host m.toNat = true ∧ rwsMask m.toNat ≠ 0
        ∧ (opened []).rwsRefusal .host m.toNat 679 = some Cause.FORMAT) := by
  decide +kernel

theorem witness_CommitsEnd_commit :
    let l : List Shadow := [⟨Reg.gauge.POL_VMAX, 900, true⟩]
    (∀ o ∈ [false, true],
      let s := { opened l with tally := { (opened l).tally with overflow := o } }
      s.takesClean .host Reg.tally.TX_CTRL = true ∧ s.tally.state = .opened ∧ s.tally.owner = Writer.host.id
        ∧ s.tally.shadows.any (fun x => !x.good) = false ∧ s.pageChecks.2 = none ∧ s.carriesAdm = false ∧ s.injectCredit = false
        ∧ s.tally.overflow = o ∧ s.tableReads = [])
      ∧ (committing l).tally.state = .committing ∧ (committing l).tally.timeoutTicks ≤ (committing l).tally.elapsed := by
  decide +kernel

/-- A commit of a kernel table of stack 0 at 4096, with no record; and of a collective table of one record in stack 0, its stack in
self-refresh. -/
theorem witness_CommitsEnd_tables :
    let s := opened [⟨Reg.mkv.MK_TABLE_LO 0, 4096, true⟩]
    let q := (opened [⟨Reg.global.COLL_TABLE_LO, 4096, true⟩, ⟨Reg.global.COLL_CTRL, 1, true⟩]).setFld (Reg.ctl.MEM_STATUS 0) 4 4 1
    (s.takesClean .host Reg.tally.TX_CTRL = true ∧ s.tally.state = .opened ∧ s.tally.owner = Writer.host.id
        ∧ s.tally.shadows.any (fun x => !x.good) = false ∧ s.tally.overflow = false ∧ s.pageChecks.2 = none ∧ s.carriesAdm = false
        ∧ s.injectCredit = false ∧ s.tableReads.length = 1
        ∧ (∀ x ∈ s.tableReads, s.memWaits x.2.1 x.2.2 = false ∧ (x.1 ≠ Master.none → s.tagsReady x.1 (memPools x.2.1 x.2.2) = true)))
      ∧ (q.takesClean .host Reg.tally.TX_CTRL = true ∧ q.tally.state = .opened ∧ q.tally.owner = Writer.host.id
        ∧ q.tally.shadows.any (fun x => !x.good) = false ∧ q.tally.overflow = false
        ∧ (∃ x ∈ q.tableReads, q.memWaits x.2.1 x.2.2 = true)) := by
  decide +kernel

/-- The apply of a shadow of Gauge, of the last engine and of the last port. -/
theorem witness_CommitsEnd_pages :
    ∀ a ∈ [Reg.gauge.POL_VMAX, Reg.engine.ROW_ORG 63, Reg.port.TMO_LINK 23],
      let s := committing [⟨a, 700, true⟩]
      canon s = true ∧ s.tally.state = .committing ∧ s.allSafe = true ∧ s.tally.shadows = [⟨a, 700, true⟩]
        ∧ (pageOf a = .gauge ∧ a ≠ Reg.gauge.POL_PCAP ∨ pageOf a = .engine 63 ∨ pageOf a = .port 23)
        ∧ a ≠ (pageOf a).base + Reg.header.TALLY := by
  decide +kernel

theorem witness_CommitsEnd_admission :
    let s := { committing [⟨Reg.tally.ADM_CTRL, 1, true⟩] with
      tally := { (committing [⟨Reg.tally.ADM_CTRL, 1, true⟩]).tally with nextRecs := [admRecOf 7] } }
    s.tally.state = .committing ∧ s.allSafe = true ∧ s.carriesAdm = true ∧ (admRecOf 7) ∈ s.tally.nextRecs ∧ (admRecOf 7).barn < 8
      ∧ (admRecOf 7).catchCrop = false := by decide +kernel

/-- A span of barn 0 a tick past its deadline of 1 µs. -/
def lateSpan : State :=
  let r : AdmRec := { admRecOf 0 with barn := 0, deadline := 1000 }
  { run with tally := { Tally.reset with
    live := true, recs := [r]
    spans := Tally.reset.spans.setIfInBounds 0 { Span.reset with live := true, table := [r], released := true, timer := 157 } } }

/-- A span of barn 0 that waits for the cadence, whose period of 1 µs just ends. -/
def cadenceSpan : State :=
  let r : AdmRec := { admRecOf 0 with barn := 0, rel := 1, deadline := 1000 }
  { run with tally := { Tally.reset with
    live := true, recs := [r], cadence := true, cadPeriod := 1, cadElapsed := 10000
    spans := Tally.reset.spans.setIfInBounds 0 { Span.reset with live := true, table := [r] } } }

theorem witness_SpansMissAndRelease :
    (canon lateSpan = true ∧ lateSpan.missNow 0 = true)
      ∧ (cadenceSpan.tally.live = true ∧ cadenceSpan.tally.cadence = true ∧ cadenceSpan.tally.cadPeriod ≠ 0
        ∧ 10000 * cadenceSpan.tally.cadPeriod ≤ cadenceSpan.tally.cadElapsed
        ∧ (cadenceSpan.curRec 0).map (fun r => r.rel) = some 1 ∧ (cadenceSpan.span 0).released = false ∧ (cadenceSpan.span 0).voided = false
        ∧ (List.range 8).any cadenceSpan.cadenceOpen = false) := by
  decide +kernel

/-- The last unit of each type. -/
theorem witness_UnitOfflineAdvancesEpoch :
    (∀ x ∈ [(0, 62), (1, 15), (2, 15), (3, 23), (4, 31), (5, 7)],
      let v : Word := BitVec.ofNat 32 (2 ^ 31 + 2 ^ 8 * x.1 + x.2)
      run.takesClean .mgmt Reg.global.UNIT_OFFLINE = true ∧ Writer.mgmt ∈ [Writer.mgmt, .fp 0] ∧ bit v.toNat 31 = true
        ∧ v.field 11 8 = x.1 ∧ run.unitExists (v.field 11 8) (v.field 7 0) = true)
      ∧ canon run = true ∧ run.tally.state ≠ .committing ∧ run.takesClean .host Reg.global.UNIT_OFFLINE = true
      ∧ Writer.host ∉ [Writer.mgmt, .fp 0] := by
  decide +kernel

/-! ## Flumes -/

/-- Does the descriptor at an address read as `d`? -/
def descIs (s : State) (f a : Nat) (d : FDesc) : Bool :=
  match (s.readDesc f a).2 with
  | .ok e => decide (e = d)
  | _ => false

theorem readDesc_of_descIs {s : State} {f a : Nat} {d : FDesc} (h : descIs s f a d = true) : (s.readDesc f a).2 = .ok d := by
  unfold descIs at h; split at h <;> simp_all

/-- Is the descriptor at an address refused with `cause`, and a freeze? -/
def descRefused (s : State) (f a cause : Nat) : Bool :=
  match (s.readDesc f a).2 with
  | .error (c, fr) => decide (c = cause) && fr
  | _ => false

theorem readDesc_of_descRefused {s : State} {f a c : Nat} (h : descRefused s f a c = true) : (s.readDesc f a).2 = .error (c, true) := by
  unfold descRefused at h; split at h <;> simp_all

/-- Flume 0 in a state, its next slot empty or as given. -/
def flumeIn (st : FlState) (n : Option (Nat × FDesc)) : State := withFlume (fun x => { x with state := st, nxt := n }) run

theorem witness_FlumeArms :
    let held := withFlume (fun x => { x with fetch := some ⟨4096, .arm .host⟩ }) run
    let gone := withFlume (fun x => { x with offApplied := true }) run
    (∀ s ∈ [held, gone, run, flumeIn .active none, flumeIn .activeNext (some (4096, memDesc 0)), flumeIn .aborted none],
        canon s = true ∧ s.takesClean .host (Reg.flume.ARM_CTRL 0) = true)
      ∧ (held.flume 0).fetchHolds = true ∧ gone.flumeGone 0 = true
      ∧ (∀ s ∈ [run, flumeIn .active none, flumeIn .activeNext (some (4096, memDesc 0)), flumeIn .aborted none],
        (s.flume 0).fetchHolds = false ∧ (s.flume 0).heldArms = [] ∧ s.flumeGone 0 = false)
      ∧ (run.flume 0).state = .idle ∧ (run.flume 0).nextFull = false ∧ ((flumeIn .active none).flume 0).nextFull = false := by
  decide +kernel

/-- The 256 bytes of a descriptor at 4096, and TOKIN five below the top of the counter. -/
def descAt : State := putMem 4096 (leBytes 256 (flumeWord 1 1 8192 16384 5)) (run.setReg (Reg.flume.TOKIN 0) 65530)
/-- Flume 0 fetching for its armer, or for a link. -/
def fetching (st : FlState) (who : FetchFor) (s : State) : State :=
  withFlume (fun x => { x with state := st, fetch := some ⟨4096, who⟩ }) s

/-- The fetched descriptor, with TOKIN and PRELOAD up to the top of the counter; and a descriptor of version 0, which is refused. -/
theorem witness_FlumeArms_fetch :
    (∀ x ∈ [(FlState.idle, FetchFor.arm .host), (.active, .arm .host), (.active, .link)],
      let s := fetching x.1 x.2 descAt
      canon s = true ∧ (s.flume 0).fetch = some ⟨4096, x.2⟩ ∧ (s.flume 0).heldArms = [] ∧ s.flumeRuns 0 = true
        ∧ s.fetchWaits 0 ⟨4096, x.2⟩ = false ∧ s.injectCredit = false
        ∧ s.tagsReady (Master.flume 0) (s.fetchNeeds 0 ⟨4096, x.2⟩) = true ∧ descIs s 0 4096 (memDesc 5) = true
        ∧ s.tokin 0 + (memDesc 5).preload ≤ 65535)
      ∧ descRefused (fetching .idle (.arm .host) run) 0 4096 Cause.FORMAT = true := by
  decide +kernel

/-- The same with every tag of the address's pool held by waiting masters. -/
theorem witness_FlumeArms_noTag :
    let s := noTags (memPools 4096 256) (fetching .idle (.arm .host) descAt)
    canon s = true ∧ s.flumeRuns 0 = true ∧ s.fetchWaits 0 ⟨4096, .arm .host⟩ = false ∧ s.injectCredit = false
      ∧ s.tagsReady (Master.flume 0) (s.fetchNeeds 0 ⟨4096, .arm .host⟩) = false := by
  decide +kernel

/-- Does an element read answer exactly these bytes? -/
def readIs (s : State) (d : FDesc) (x : FElem) (h bs : List Byte) : Bool :=
  match (s.elemRead 0 d x h .clean .good).2 with
  | .ok l => decide (l = bs)
  | _ => false

theorem elemRead_of_readIs {s : State} {d : FDesc} {x : FElem} {h bs : List Byte} (e : readIs s d x h bs = true) :
    (s.elemRead 0 d x h .clean .good).2 = .ok bs := by
  unfold readIs at e; split at e <;> simp_all

/-- Flume 0 at the first element of a descriptor. -/
def moving (d : FDesc) : State :=
  withFlume (fun x => { x with state := .active, cur := some (newTask 4096 d 0 0) })
    { putMem 8192 (List.replicate 64 7) run with
      crib := run.crib.wrBytes (cribKey 0 8192) (List.replicate 64 7), loft := run.loft.wrBytes (loftKey 0 8192) (List.replicate 64 7) }

/-- Every space but a Weir's as source and as destination. -/
theorem witness_FlumeElementMoves :
    ∀ src ∈ [0, 1, 2, 3], ∀ dst ∈ [0, 1, 2, 3],
      let t := newTask 4096 (spaceDesc src dst) 0 0
      let s := moving (spaceDesc src dst)
      let x := t.d.element t.issued
      let bs := List.replicate 64 (7 : Byte)
      let host := if src = 0 then bs else []
      canon s = true ∧ (s.flume 0).bulkTodo = [] ∧ (s.flume 0).hostDue = [] ∧ t.d.elem ≠ 0 ∧ s.issueTask 0 = some t
        ∧ s.gateOpen 0 t = true ∧ s.headgateOpen 0 t.d.elem = true ∧ inSpace t.d.srcSpace x.src t.d.elem = true
        ∧ inSpace t.d.dstSpace x.dst t.d.elem = true ∧ t.d.srcSpace = src ∧ t.d.dstSpace = dst
        ∧ (t.d.hostAddr x).bind (fun va => s.needsPage va t.d.elem) = none ∧ s.elemWaits t.d x = false
        ∧ (t.d.srcSpace = 0 → host.length = t.d.elem) ∧ s.tagsReady (Master.flume 0) (t.d.needs x) = true ∧ s.injectCredit = false
        ∧ readIs s t.d x host bs = true ∧ (s.elemWrite 0 t.d x bs .good).2 = none := by
  decide +kernel

/-- An element from a Weir, and one to a Weir, of port 0. -/
theorem witness_FlumeElementMoves_weir :
    ∀ p ∈ [(4, 1), (1, 4), (0, 4)],
      let t := newTask 4096 (spaceDesc p.1 p.2) 0 0
      let s := moving (spaceDesc p.1 p.2)
      let x := t.d.element t.issued
      (canon s = true ∧ (s.flume 0).bulkTodo = [] ∧ s.issueTask 0 = some t ∧ s.gateOpen 0 t = true ∧ s.headgateOpen 0 t.d.elem = true)
        ∧ (inSpace t.d.srcSpace x.src t.d.elem = true ∧ inSpace t.d.dstSpace x.dst t.d.elem = true ∧ t.d.srcSpace = p.1
          ∧ t.d.dstSpace = p.2)
        ∧ (t.d.hostAddr x).bind (fun va => s.needsPage va t.d.elem) = none ∧ s.elemWaits t.d x = false
        ∧ s.tagsReady (Master.flume 0) (t.d.needs x) = true ∧ s.injectCredit = false
        ∧ (s.flume 0).hostDue = []
        ∧ (p.1 ≠ 4 → readIs s t.d x (if p.1 = 0 then List.replicate 64 7 else []) (List.replicate 64 7) = true) ∧ t.d.weirPort < 24
        ∧ s.bridgeArmed (Master.flume 0) (decide (12 ≤ t.d.weirPort)) (decide (t.d.dstSpace = 4)) = false
        ∧ (bulkParts 300 (if t.d.srcSpace = 4 then x.src.toNat else x.dst.toNat) t.d.elem).length
            ≤ s.tagsFor (Master.flume 0) (.weir (Fin.ofNat 24 t.d.weirPort)) := by
  decide +kernel

theorem witness_FlumeElementMoves_gated :
    let t := newTask 4096 { memDesc 0 with gateEvery := 1, gateN := 1 } 0 0
    let s := withFlume (fun x => { x with state := .active, cur := some t }) run
    canon s = true ∧ (s.flume 0).bulkTodo = [] ∧ s.issueTask 0 = some t ∧ s.gateOpen 0 t = false := by decide +kernel

/-- A task of two elements issued whose every group signals: `kind`, to target 7, up to the top of a counter. -/
def sigTask (kind : Nat) : Task :=
  { newTask 4096 { memDesc 0 with sigEvery := 1, sigKind := kind, sigTarget := 7, sigToken := 15, sigN := 65535 } 0 0 with issued := 2 }
def tasking (t : Task) : State := withFlume (fun x => { x with state := .active, cur := some t }) run

/-- The first element, and a later one before it. -/
theorem witness_FlumeCompletesAndSignals :
    let t := sigTask 0
    canon (tasking t) = true ∧ ((tasking t).flume 0).cur = some t ∧ (∀ e ∈ [0, 1], ((tasking t).flume 0).mayComplete t e = true)
      ∧ (0 = t.prefixDone ∧ t.ackedAhead = []) ∧ (t.prefixDone < 1 ∧ t.ackedAhead.contains t.prefixDone = false) := by
  decide +kernel

/-- The signal of the first group, of each kind, and suppressed. -/
theorem witness_FlumeCompletesAndSignals_signal :
    ∀ k ∈ [0, 1, 2], ∀ n ∈ [0, 1],
      let d := { sigTask k with prefixDone := 1, suppress := n }
      let s := tasking d
      canon s = true ∧ (s.flume 0).cur = some d ∧ s.flumeRuns 0 = true ∧ (s.flume 0).state ≠ .aborted ∧ (s.flume 0).abortHeld = none
        ∧ d.signalled < d.groupsDone ∧ d.suppress = n ∧ d.d.sigKind = k ∧ d.d.sigTarget < 32
        ∧ s.token d.d.sigTarget d.d.sigToken + d.d.sigN ≤ 65535 ∧ s.tokin d.d.sigTarget + d.d.sigN ≤ 65535 := by
  decide +kernel

theorem witness_FlumeBoundaryAndRestart_boundary :
    let t := { newTask 4096 (memDesc 0) 0 0 with issued := 1, prefixDone := 1 }
    ∀ n ∈ [none, some (8192, memDesc 65535)],
      let s := withFlume (fun x => { x with state := if n.isSome then .activeNext else .active, cur := some t, nxt := n }) run
      canon s = true ∧ s.flumeRuns 0 = true ∧ (s.flume 0).heldNext = false ∧ s.endedTask 0 = some t ∧ t.d.sigTail = false
        ∧ s.tally.state ≠ .committing ∧ (s.flume 0).offline = false ∧ s.tally.live = false ∧ (s.flume 0).nxt = n
        ∧ s.tokin 0 + 65535 ≤ 65535 := by
  decide +kernel

/-- An aborted Flume whose task, and whose snapshot, stand at 4096; with or without a next descriptor at 4096 too. -/
def restartAt (next : Bool) : State :=
  withFlume (fun x => { x with state := .aborted, curAddr := 4096, abortCause := some Cause.PAGE_FAULT, pageReq := some 0
                               cur := some (newTask 4096 (memDesc 5) 0 0), nxt := if next then some (4096, memDesc 5) else none })
    ((descAt.setReg (Reg.flume.SNAP_CUR_LO 0) 4096).setReg (Reg.flume.SNAP_CUR_HI 0) 0x80000000#32)

/-- An aborted Flume restarts its task, and its snapshot's descriptor. -/
theorem witness_FlumeBoundaryAndRestart_restart :
    (∀ next ∈ [true, false],
      let s := restartAt next
      (canon s = true ∧ s.takesClean .host (Reg.flume.RESTART 0) = true ∧ (s.flume 0).state = .aborted ∧ s.flumeRuns 0 = true)
        ∧ (s.flume 0).offline = false ∧ (s.flume 0).cur = some (newTask 4096 (memDesc 5) 0 0) ∧ (s.flume 0).nextAt = none
        ∧ (∀ snap ∈ [true, false], s.fetchWaits 0 ⟨4096, .restart .host snap⟩ = false
          ∧ s.tagsReady (Master.flume 0) (s.fetchNeeds 0 ⟨4096, .restart .host snap⟩) = true)
        ∧ (s.restartSlots 0 false).2 = (if next then some 4096 else none) ∧ s.injectCredit = false ∧ descIs s 0 4096 (memDesc 5) = true
        ∧ s.tokin 0 + (memDesc 5).preload ≤ 65535
        ∧ (next = true → (s.flume 0).nxt = some (4096, memDesc 5))
        ∧ s.regBit (Reg.flume.SNAP_CUR_HI 0) 31 = true ∧ s.regBit (Reg.flume.SNAP_NEXT_HI 0) 31 = false
        ∧ (s.reg (Reg.flume.SNAP_CUR_LO 0)).toNat + 2 ^ 32 * s.fld (Reg.flume.SNAP_CUR_HI 0) 9 0 = 4096)
      ∧ run.takesClean .host (Reg.flume.RESTART 0) = true ∧ (run.flume 0).state ≠ .aborted := by
  decide +kernel

/-- An aborted Flume whose next descriptor the abort recorded; and one whose snapshot has only a next descriptor. -/
theorem witness_FlumeBoundaryAndRestart_next :
    let s := (restartAt false).modFlume 0 (fun x => { x with nextAt := some 4096 })
    let q := (((restartAt false).setReg (Reg.flume.SNAP_CUR_HI 0) 0).setReg (Reg.flume.SNAP_NEXT_LO 0) 4096).setReg
      (Reg.flume.SNAP_NEXT_HI 0) 0x80000000#32
    (∀ y ∈ [(s, false), (q, true)], canon y.1 = true ∧ y.1.takesClean .host (Reg.flume.RESTART 0) = true ∧ (y.1.flume 0).state = .aborted
        ∧ y.1.flumeRuns 0 = true ∧ (y.1.flume 0).curAddr = 4096 ∧ y.1.fetchWaits 0 ⟨4096, .restart .host y.2⟩ = false
        ∧ y.1.tagsReady (Master.flume 0) (y.1.fetchNeeds 0 ⟨4096, .restart .host y.2⟩) = true ∧ y.1.injectCredit = false
        ∧ descIs y.1 0 4096 (memDesc 5) = true)
      ∧ ((s.restartSlots 0 false).2 = some 4096 ∧ (s.flume 0).cur = some (newTask 4096 (memDesc 5) 0 0)
        ∧ s.tokin 0 + (memDesc 5).preload ≤ 65535)
      ∧ (q.regBit (Reg.flume.SNAP_CUR_HI 0) 31 = false ∧ q.regBit (Reg.flume.SNAP_NEXT_HI 0) 31 = true
        ∧ (q.reg (Reg.flume.SNAP_NEXT_LO 0)).toNat + 2 ^ 32 * q.fld (Reg.flume.SNAP_NEXT_HI 0) 9 0 = 4096
        ∧ q.fld (Reg.flume.SNAP_TOKIN 0) 15 0 + (memDesc 5).preload ≤ 65535) := by
  decide +kernel

/-- An aborted Flume whose snapshot names no descriptor. -/
theorem witness_FlumeBoundaryAndRestart_empty :
    let s := flumeIn .aborted none
    (canon s = true ∧ s.takesClean .host (Reg.flume.RESTART 0) = true ∧ (s.flume 0).state = .aborted ∧ s.flumeRuns 0 = true)
      ∧ s.regBit (Reg.flume.SNAP_CUR_HI 0) 31 = false ∧ s.regBit (Reg.flume.SNAP_NEXT_HI 0) 31 = false ∧ s.commitHoldsFlume 0 = false
      ∧ (s.flume 0).offline = false := by
  decide +kernel

/-- A host element whose translation is awaited, or whose read failed. -/
theorem witness_FlumeHostAccess :
    let t := newTask 4096 (spaceDesc 0 1) 0 0
    let s := withFlume (fun x => { x with state := .active, cur := some t, waitVa := some 8192 }) run
    let q := withFlume (fun x => { x with state := .active, cur := some t }) run
    (canon s = true ∧ (s.flume 0).waitVa = some 8192 ∧ (s.flume 0).cur = some t ∧ (s.flume 0).drained = true ∧ (s.flume 0).abortHeld = none
        ∧ (s.flume 0).offline = false)
      ∧ (canon q = true ∧ q.issueTask 0 = some t ∧ t.d.srcSpace = 0 ∧ t.d.elem ≠ 0 ∧ q.gateOpen 0 t = true
        ∧ q.headgateOpen 0 t.d.elem = true ∧ inSpace 0 (t.d.element t.issued).src t.d.elem = true
        ∧ inSpace t.d.dstSpace (t.d.element t.issued).dst t.d.elem = true ∧ (q.flume 0).drained = true ∧ (q.flume 0).offline = false
        ∧ q.needsPage (t.d.element t.issued).src.toNat t.d.elem = none ∧ q.elemWaits t.d (t.d.element t.issued) = false
        ∧ q.tagsReady (Master.flume 0) (t.d.needs (t.d.element t.issued)) = true)
      ∧ q.host.inval = [] ∧ (List.range 32).any (fun k => run.usesRange k 12288 4096) = false
      ∧ (List.range 32).any (fun k => (tasking { t with issued := 1 }).usesRange k 8192 4096) = true := by decide +kernel

/-- One host read out, and two: the oldest fails, or its data comes. -/
theorem witness_FlumeHostAccess_due :
    let t := { newTask 4096 { spaceDesc 0 1 with levels := [⟨2, 64, 64⟩] } 0 0 with issued := 2 }
    ∀ due ∈ [[0], [0, 1]],
      let s := withFlume (fun x => { x with state := .active, cur := some t, hostDue := due }) run
      let bs := List.replicate 64 (7 : Byte)
      canon s = true ∧ (s.flume 0).cur = some t ∧ (s.flume 0).hostDue = 0 :: due.drop 1 ∧ (s.flume 0).abortHeld = none
        ∧ (s.flume 0).bulk = [] ∧ (s.flume 0).bulkTodo = [] ∧ (s.flume 0).offline = false ∧ bs ≠ [] ∧ bs.length = t.d.elem
        ∧ t.d.srcSpace = 0 ∧ t.d.dstSpace < 4 ∧ s.fatal = false ∧ s.injectCredit = false
        ∧ readIs s t.d (t.d.element 0) bs bs = true ∧ (s.elemWrite 0 t.d (t.d.element 0) bs .good).2 = none := by
  decide +kernel

/-- A page request answered: FP-B running, and not; and the tag of the last pool for the one master that waits for it. -/
theorem witness_FlumeHostAccess_answers :
    let s := restartAt false
    let q := { s with fps := Vector.replicate 4 Fp.reset }
    let p := { withFlume (fun x => { x with waitTag := true }) run with pools := [⟨.weir 23, 0x10, [0x10], []⟩] }
    (canon s = true ∧ (s.flume 0).pageReq = some 0 ∧ PageAnswer.responseFailure ≠ .success ∧ (s.flume 0).state = .aborted
        ∧ (s.flume 0).abortCause = some Cause.PAGE_FAULT ∧ (s.flume 0).stepAborted = false ∧ s.fpbRuns = true ∧ (s.flume 0).nxt = none
        ∧ (s.flume 0).nextAt = none ∧ (s.reg ((Page.flume 0).base + Reg.header.ERR_STATUS)).field 7 0 = 0
        ∧ s.fetchWaits 0 ⟨4096, .restart (.fp 0) false⟩ = false
        ∧ s.tagsReady (Master.flume 0) (s.fetchNeeds 0 ⟨4096, .restart (.fp 0) false⟩) = true)
      ∧ (canon q = true ∧ (q.flume 0).pageReq = some 0 ∧ q.fpbRuns = false)
      ∧ (canon p = true ∧ p.poolUsed (.weir 23) < poolTags (.weir 23) ∧ (p.poolState (.weir 23)).pick = some 0x10
        ∧ (run.poolState .host).pick = none) := by decide +kernel

theorem witness_FlumeAndWeirFrames :
    isNext (exec (.restartClear .host 0) (withFlume (fun x => { x with state := .aborted }) run)) = true
      ∧ isNext (exec (.flumeElementComplete 0 0) (tasking (sigTask 0))) = true ∧ isNext (exec (.tmoLink 0) run) = true := by
  decide +kernel

/-! ## The Weir: the link -/

/-- The last lane alone, equalised; and each way a training leaves the port down. -/
theorem witness_LinkTrainsAndSends :
    (run.port 0).link = .down ∧ (run.port 0).retired = false ∧ run.fplTrains = true ∧ run.fatal = false
      ∧ (8 : BitVec 4) &&& ~~~ (run.port 0).lanesRetired ≠ 0 ∧ (0 : BitVec 4) &&& ~~~ (run.port 0).lanesRetired = 0 := by decide +kernel

/-- A flit's worth of packet bytes and one more, with a symbol; ERR_INJECT [0] set or not. -/
def sending (inject : Bool) : State :=
  withPort (fun x => { x with txBuf := List.replicate 617 1, txSyms := [symAck 5] })
    (run.setReg (Reg.port.page 0 + Reg.header.ERR_INJECT) (if inject then 1 else 0))

theorem witness_LinkTrainsAndSends_flit :
    ∀ inject ∈ [true, false],
      let s := sending inject
      let y := s.pickSyms 0
      let r := y.2.flitArea 0 (s.port 0).txBuf
      (s.port 0).link = .up ∧ (s.port 0).retired = false ∧ (s.port 0).replay.length < 1024 ∧ (s.port 0).offApplied = false ∧ s.fatal = false
        ∧ s.up = true ∧ r.2 ≠ [] ∧ r.1.fatal = false ∧ r.1.regBit (Reg.port.page 0 + Reg.header.ERR_INJECT) 3 = false
        ∧ r.1.regBit (Reg.port.page 0 + Reg.header.ERR_INJECT) 0 = inject := by decide +kernel

/-- A flit on the last lane at the last sequence number, with the packet area given. -/
def flitOf (area : List Byte) : Flit :=
  ⟨BitVec.ofNat 20 (1 + 4 * 4095), flitBody (BitVec.ofNat 20 (1 + 4 * 4095)) (padArea area) [symAck 1], 3, .clean⟩
def expecting : State := withPort (fun x => { x with rxExpect := 4095 }) run

theorem witness_FlitsAreTaken :
    let f := flitOf []
    f.wellFormed = true ∧ (expecting.port 0).link = .up ∧ bit (expecting.port 0).lanes.toNat f.lane.val = true ∧ f.fec ≠ .uncorrectable
      ∧ bits f.tag.toNat 1 0 = 1 ∧ BitVec.ofNat 12 (bits f.tag.toNat 13 2) = (expecting.port 0).rxExpect
      ∧ expecting.regBit (Reg.port.page 0 + Reg.header.ERR_INJECT) 3 = false ∧ canon expecting = true
      ∧ takePackets packetsPerFlit ((expecting.port 0).rxBuf ++ f.body.take 616) = ([], [])
      ∧ (run.port 0).link ≠ .up ∧ Sys2Proof.Flit.wellFormed { f with body := [] } = false := by decide +kernel

set_option maxRecDepth 100000 in
theorem witness_FlitsAreTaken_crc : leNat (((flitOf []).body.drop 636).take 4) = (flitCrc (flitOf []).tag (flitOf []).body).toNat := by
  decide +kernel

set_option maxRecDepth 100000 in
theorem witness_FlitsAreTaken_bad :
    let f : Flit := { flitOf [] with tag := (flitOf []).tag + 4 }
    f.wellFormed = true ∧ leNat ((f.body.drop 636).take 4) ≠ (flitCrc f.tag f.body).toNat := by decide +kernel

/-- A register read of another module, as it arrives here. -/
def mrdPacket : Packet := mkPacket 3 0 0 false 5 0 0 7 0 []

theorem witness_FlitsAreTaken_packet :
    let f := flitOf mrdPacket.bytes
    f.wellFormed = true
      ∧ takePackets packetsPerFlit ((expecting.port 0).rxBuf ++ f.body.take 616) = ([mrdPacket], [])
      ∧ expecting.forThis mrdPacket = true ∧ expecting.mustDiscard 0 mrdPacket = false := by decide +kernel

set_option maxRecDepth 100000 in
theorem witness_FlitsAreTaken_packetCrc :
    let f := flitOf mrdPacket.bytes
    leNat ((f.body.drop 636).take 4) = (flitCrc f.tag f.body).toNat := by decide +kernel

/-- A port whose oldest flit has waited 4 µs; one silent for TMO_LINK of 4 µs, alone or under a LINK slice. -/
def lateFlit : State := { withPort (fun x => { x with replay := [(0, ⟨1, []⟩)] }) run with time := 625 }
def silent (slice : Bool) : State :=
  { (withPort id run).setReg (Reg.port.TMO_LINK 0) 4 with
    time := 625, sliceRun := if slice then [⟨⟨0xB, 0⟩, 0, 0, false, false⟩] else [] }
/-- Flume 0 waits for a bulk reply of port 0, and `n` more that came later. -/
def bulkWaiting (n : Nat) : State :=
  { withFlume (fun x => { x with
      state := .active, cur := some { newTask 4096 (spaceDesc 4 1) 0 0 with issued := 1 }
      bulk := ⟨0, 0, 0, none, 64, 0, none⟩ :: List.replicate n ⟨1, 0, 64, none, 64, 600, none⟩ })
      (run.setReg Reg.global.BULK_TMO 4) with time := 625 }

theorem witness_WeirTimeouts :
    (∀ b ∈ [true, false],
        let s := { lateFlit with fatal := b }
        (s.port 0).link = .up ∧ (s.port 0).replay ≠ [] ∧ reachedUs (s.time - (s.port 0).replaySince) 4 = true
        ∧ s.regBit (Reg.port.page 0 + Reg.header.ERR_INJECT) 0 = false)
      ∧ (∀ b ∈ [true, false], ((silent b).port 0).link = .up ∧ ((silent b).port 0).retired = false
        ∧ reachedUs ((silent b).time - ((silent b).port 0).lastRx) ((silent b).fld (Reg.port.TMO_LINK 0) 23 0) = true
        ∧ (silent b).sliceHoldsPort 0 = b)
      ∧ (∀ n ∈ [0, 1], (bulkWaiting n).bulkExpired 0 = some ⟨0, 0, 0, none, 64, 0, none⟩ ∧ ((bulkWaiting n).flume 0).offline = false
        ∧ ((bulkWaiting n).flume 0).bulkTodo = [] ∧ ((bulkWaiting n).flume 0).hostDue = []
        ∧ ((bulkWaiting n).flume 0).bulk.filter (fun v => !v.same ⟨0, 0, 0, none, 64, 0, none⟩)
            = List.replicate n ⟨1, 0, 64, none, 64, 600, none⟩
        ∧ (bulkWaiting n).bulkOf 0 0 = some (0, ⟨0, 0, 0, none, 64, 0, none⟩)) := by decide +kernel

/-- A REDUCE packet held for its TACK, in a job that has not committed and in one that has. -/
def tackLate (passed : Bool) : State :=
  let k : Packet := mkPacket 0 0 0 false 0 0 0 5 (reduceRest 0 0 0 0) []
  ({ withPort (fun x => { x with held := [⟨5, k, 0⟩] }) (withColl (collWord 0 0 0 2 4 1) run) with time := 10 ^ 9 } : State).modJob 0
    (fun x => { x with passed := passed })

theorem witness_WeirTimeouts_hop :
    ∀ passed ∈ [true, false],
      let s := tackLate passed
      canon s = true ∧ s.hopExpired 0 (.tack 5) = some (0 : JobId).val ∧ (s.job 0).passed = passed ∧ s.jobLive 0 = true
        ∧ (s.job 0).aborted = false ∧ (s.job 0).phase < 2 := by decide +kernel

/-! ## The Weir: symbols -/

/-- Port 0 with a symbol at the front, and two flits not acknowledged. -/
def symAt (v : BitVec 64) : State :=
  withPort (fun x => { x with rxQ := [.sym v], replay := [(6, ⟨1, []⟩), (7, ⟨1, []⟩)] }) run

/-- ACK and NAK of a flit that stands in the buffer, and of none; the last class of CREDIT; three lanes left. -/
theorem witness_PortSymbols :
    let at' (v : BitVec 64) := ((symAt v).port 0).replay.findIdx? (fun y => decide (y.1 = BitVec.ofNat 12 (bits v.toNat 19 8)))
    (∀ n ∈ [7, 9], takeSym Sym.ACK ((symAt (symAck (BitVec.ofNat 12 n))).port 0).rxQ = some (symAck (BitVec.ofNat 12 n), []))
      ∧ at' (symAck 7) = some 1 ∧ at' (symAck 9) = none
      ∧ (∀ n ∈ [6, 9], takeSym Sym.NAK ((symAt (symNak (BitVec.ofNat 12 n))).port 0).rxQ = some (symNak (BitVec.ofNat 12 n), []))
      ∧ at' (symNak 6) = some 0 ∧ at' (symNak 9) = none ∧ (symAt (symNak 6)).fatal = false
      ∧ takeSym Sym.NAK ((({ symAt (symNak 6) with fatal := true } : State).port 0).rxQ) = some (symNak 6, [])
      ∧ run.regBit (Reg.port.page 0 + Reg.header.ERR_INJECT) 0 = false
      ∧ takeSym Sym.CREDIT ((symAt (symCredit 3 0 9)).port 0).rxQ = some (symCredit 3 0 9, []) ∧ bits (symCredit 3 0 9).toNat 10 8 ≤ 3
      ∧ (∀ n ∈ [5, 7, 8], takeSym Sym.LANE ((symAt (symLane 7 n)).port 0).rxQ = some (symLane 7 n, [])
        ∧ ((symAt (symLane 7 n)).port 0).lanes &&& ~~~ (BitVec.ofNat 4 (bits (symLane 7 n).toNat 11 8)) ≠ 0
        ∧ popcount8 (((symAt (symLane 7 n)).port 0).lanesRetired
            ||| (((symAt (symLane 7 n)).port 0).lanes &&& ~~~ (BitVec.ofNat 4 (bits (symLane 7 n).toNat 11 8)))).toNat < 2) := by
  decide +kernel

/-- A packet of tag 511 held for its TACK. -/
def heldTack (kind : Nat) : HeldTag := ⟨511, mkPacket 0 kind 0 false 0 0 0 511 (reduceRest 0 0 0 0) [], 0⟩
def tackAt (kind : Nat) (bad : Bool) : State :=
  withPort (fun x => { x with rxQ := [.sym (symTack 0 511 bad)], held := [heldTack kind] }) run
def telSym : BitVec 64 := mkSym Sym.TELEMETRY 0 (2 ^ 8 * 5 + 2 ^ 22 * 7)

/-- Every kind of packet answered; SLOW of this step and of the next. -/
theorem witness_PortSymbols_collective :
    (∀ kind ∈ [0, 1, 2, 3, 4], ∀ bad ∈ [true, false], takeSym Sym.TACK ((tackAt kind bad).port 0).rxQ = some (symTack 0 511 bad, [])
        ∧ ((tackAt kind bad).port 0).heldOf 0 (bits (symTack 0 511 bad).toNat 16 8) = some (heldTack kind)
        ∧ bit (symTack 0 511 bad).toNat 17 = bad ∧ (heldTack kind).pkt.fields.kind = kind)
      ∧ (∀ n ∈ [0, 1], takeSym Sym.SLOW ((got (.sym (symSlow 15 n)) run).port 0).rxQ = some (symSlow 15 n, [])
        ∧ (bits (symSlow 15 n).toNat 17 8 = run.step10 ↔ n = 0)) := by
  decide +kernel

/-- TELEMETRY's last slot of module 5, its stack in self-refresh or not. -/
theorem witness_PortSymbols_telemetry :
    ∀ b ∈ [true, false],
      let s := got (.sym telSym) (run.setFld (Reg.ctl.MEM_STATUS 0) 4 4 (b2n b))
      let a := s.pair Reg.gauge.TEL_BASE_LO Reg.gauge.TEL_BASE_HI + bits telSym.toNat 21 8 * 32 + bits telSym.toNat 24 22 * 8
      takeSym Sym.TELEMETRY (s.port 0).rxQ = some (telSym, []) ∧ canon s = true ∧ s.up = true ∧ bits telSym.toNat 21 8 ≠ s.moduleId
        ∧ (s.port 0).telLand = [] ∧ s.memWaits a 8 = b ∧ s.tagsReady (Master.port 0) (accPools [(a, 8)]) = true := by
  decide +kernel

/-- ABORT of this step, in a job that has committed or not, and of the next step. -/
theorem witness_StepSymbols :
    let a (n : Nat) := symAbort 0 0x10 n 77 false
    (∀ passed ∈ [true, false],
      let s := (got (.sym (a 0)) (withVerdict 2)).modJob 0 (fun x => { x with passed := passed })
      takeSym Sym.ABORT (s.port 0).rxQ = some (a 0, []) ∧ bits (a 0).toNat 25 16 = s.step10 ∧ s.jobLive (symJob (a 0)) = true
        ∧ bit (a 0).toNat 40 = false ∧ (s.job (symJob (a 0))).aborted = false)
      ∧ takeSym Sym.ABORT ((got (.sym (a 1)) (withVerdict 2)).port 0).rxQ = some (a 1, [])
      ∧ bits (a 1).toNat 25 16 = ((withVerdict 2).step10 + 1) % 1024 := by decide +kernel

/-- VERDICT of both laps, at the first member and at another, ready or not. -/
theorem witness_StepSymbols_verdict :
    ∀ lap ∈ [0, 1], ∀ pos ∈ [0, 2], ∀ ready ∈ [true, false],
      let v := symVerdict 0 lap true false 0
      let s := (got (.sym v) (withVerdict pos)).modJob 0 (fun x => { x with ready := ready })
      canon s = true ∧ takeSym Sym.VERDICT (s.port 0).rxQ = some (v, []) ∧ bits v.toNat 20 11 = s.step10
        ∧ s.verdictRec (symJob v) = some (0, s.collRec 0) ∧ (s.job (symJob v)).aborted = false
        ∧ s.fld (Reg.global.VERDICT (symJob v)) 1 0 = 0 ∧ bit v.toNat 8 = decide (lap = 1) ∧ (s.job (symJob v)).lateCause = none
        ∧ (s.collRec 0).pos = pos ∧ (s.job (symJob v)).ready = ready ∧ (s.port (s.collRec 0).send).link = .up := by
  decide +kernel

def resuming : State := (got (.sym (symResume 0 1 0 0)) (withVerdict 2)).modJob 0 (fun x => { x with aborted := true })

theorem witness_StepSymbols_resume :
    let v := symResume 0 1 0 0
    takeSym Sym.RESUME (resuming.port 0).rxQ = some (v, []) ∧ bits v.toNat 34 25 = resuming.step10
      ∧ resuming.verdictRec (symJob v) = some (0, resuming.collRec 0) ∧ (resuming.job (symJob v)).aborted = true ∧ bit v.toNat 8 = true
      ∧ (∀ f : FlumeId, (resuming.flume f).stepAborted = false) := by decide +kernel

/-! ## The Weir: packets -/

/-- A REDUCE packet of job 0 for record 0, tile 0, last row, of a payload. -/
def reduce (kind : Nat) (d : List Byte) : Packet := mkPacket 0 kind 0 false 0 0 0 511 (reduceRest 0 0 127 0) d

/-- A row of four narrow blocks of zeros, with its checksum. -/
def narrowRow : List Byte := List.replicate (4 * 68 + 8) 0
/-- The row at port 0 of a ring of four; its port under a LINK slice or not. -/
def rowGot (kind : Nat) (d : List Byte) (slice : Bool) : State :=
  { got (.pkt (reduce kind d)) (withColl (collWord kind 0 0 2 4 1) run) with
    sliceRun := if slice then [⟨⟨0xB, 0⟩, 0, 0, false, false⟩] else [] }

/-- A block row whose checksum holds and one whose does not; a float row. -/
theorem witness_RowsAreBuffered :
    (∀ slice ∈ [true, false], ∀ kind ∈ [0, 1],
      let k := reduce kind narrowRow
      let s := rowGot kind narrowRow slice
      (s.port 0).rxQ = .pkt k :: [] ∧ s.forThis k = true ∧ k.fields.cls = 0 ∧ s.mustDiscard 0 k = false ∧ k.fields.kind = kind
        ∧ s.sliceHoldsPort 0 = slice
        ∧ (rowBlocks k.payload).2 = leBytes 8 (rowChecksum (rowBlocks k.payload).1).toNat
        ∧ (s.port (s.collRec k.fields.coll).send).localRows = [])
      ∧ (let k := reduce 0 (List.replicate (4 * 68) 0 ++ List.replicate 8 1)
        let s := rowGot 0 (List.replicate (4 * 68) 0 ++ List.replicate 8 1) false
        (s.port 0).rxQ = .pkt k :: [] ∧ s.forThis k = true ∧ s.mustDiscard 0 k = false ∧ (s.port 0).suspect = false
          ∧ (rowBlocks k.payload).2 ≠ leBytes 8 (rowChecksum (rowBlocks k.payload).1).toNat) := by decide +kernel

/-- The state without a packet at port 0. -/
def taken (s : State) : State := s.modPort 0 (fun y => { y with rxQ := [] })
/-- The stack of an address in self-refresh. -/
def hot (s : State) (a : Nat) : State := s.setReg (Reg.ctl.MEM_STATUS (addrStack a)) 16
/-- 512 bytes of 3 of a kind, at a position of a ring of four. -/
def landing (kind pos : Nat) : State :=
  got (.pkt (reduce kind (List.replicate 512 3))) (withColl (collWord (if kind = 4 then 4 else 2) 0 0 pos 4 1) run)

/-- An access's bytes answer, its stack waits, or no tag is left. -/
def accessCases (s : State) (m : Nat) (l : List (Nat × Nat)) : Bool :=
  !s.anyWaits l && s.tagsReady m (accPools l) && l.all (fun x => (hot s x.1).anyWaits l)
    && !(noTags (accPools l) s).anyWaits l && !(noTags (accPools l) s).tagsReady m (accPools l)

/-- An all-gather row and an exponent record at position 3 (the owner, 0, is the next) and at position 1. -/
theorem witness_GatherPacketsLand :
    ∀ kind ∈ [2, 3], ∀ pos ∈ [1, 3],
      let k := reduce kind (List.replicate 512 3)
      let s := landing kind pos
      let l := [(s.gatherPlace k, k.payload.length)]
      let s1 := (taken (s.useTags (Master.port 0) (accPools l))).slowOf 0 k
      (s.port 0).rxQ = .pkt k :: [] ∧ s.forThis k = true ∧ k.fields.cls = 0 ∧ k.fields.kind = kind ∧ s.mustDiscard 0 k = false
        ∧ accessCases s (Master.port 0) l = true
        ∧ ((s1.modProg k.fields.coll (fun y => { y with since := s1.time })).memWrite (Master.port 0) (s.gatherPlace k) k.payload).2 = true
        ∧ ((s.ringRec k.fields.coll).nextPos ≠ (s.ringRec k.fields.coll).owner k.fields.tile ↔ pos = 1)
        ∧ (s.ringRec k.fields.coll).send < 24 := by decide +kernel

/-- A proposal at the owner's, and at another. -/
theorem witness_GatherPacketsLand_agree :
    ∀ pos ∈ [0, 1],
      let k := reduce 4 (List.replicate 512 3)
      let s := landing 4 pos
      let s1 := (taken (s.useTags (Master.port 0) (accPools (s.agreeNeeds k)))).slowOf 0 k
      let r := s.collRec 0
      let g := s1.memRead (Master.port 0) (r.landBase + k.fields.tile * 512) 512
      (s.port 0).rxQ = .pkt k :: [] ∧ s.forThis k = true ∧ k.fields.cls = 0 ∧ k.fields.kind = 4 ∧ s.mustDiscard 0 k = false
        ∧ accessCases s (Master.port 0) (s.agreeNeeds k) = true
        ∧ g.2 = some (List.replicate 512 0) ∧ (r.owner k.fields.tile = r.pos ↔ pos = 0) ∧ r.send < 24
        ∧ (((g.1.tackPacket 0 k false).modProg k.fields.coll (fun c => { c with since := s1.time, agreed := c.agreed + 1 })).memWrite
            (Master.port r.send) (r.expBase + k.fields.tile * 512) (maxBytes k.payload (List.replicate 512 0))).2 = true := by decide +kernel

/-- A tensor write of 64 bytes on channel 0, whose record is `rec`. -/
def twPacket : Packet := mkPacket 1 0 0 false 0 0 0 9 0 (List.replicate 64 1)
def twAt (rec : Nat) : State := got (.pkt twPacket) (putMem 4096 (leBytes 32 rec) (run.setReg Reg.global.CHAN_TABLE_LO 4096))
/-- The channels of an address's stack are retired. -/
def goneAt (a : Nat) (s : State) : State := s.modStack (addrStack a) (fun x => { x with pondRetired := true, lakeRetired := true })
/-- What a TWRITE does: its record's bytes, whether its bytes are written, and the port of its answer. -/
def twReads (s : State) : Option (List Byte) × Bool × Option Nat :=
  let m := Master.port 0
  let g := ((taken (s.useTags m (accPools (s.twriteNeeds twPacket)))).slowOf 0 twPacket).memRead m (s.chanAddr twPacket.fields.chan) 16
  let w := g.1.memWrite m ((chanRecOf (leNat (g.2.getD []))).place twPacket.fields.tensorOff) twPacket.payload
  let b := w.1.freePacket 0 twPacket
  (g.2, w.2, (b.routeBy m (b.job twPacket.fields.job).map twPacket.fields.src).2)

/-- On a channel without signals, and on one that signals barn 7's last counter each 64 bytes; its record in a retired channel, or its
bytes. -/
theorem witness_TensorsAndReplies :
    (∀ rec ∈ [0, 2 ^ 96 * 64 + 2 ^ 80 * 65535 + 2 ^ 64 * 15 + 2 ^ 58 * 7, 2 ^ 36 * 5],
      let s := twAt rec
      (s.port 0).rxQ = .pkt twPacket :: [] ∧ s.forThis twPacket = true ∧ s.mustDiscard 0 twPacket = false ∧ twPacket.fields.cls = 1
        ∧ twPacket.fields.kind = 0 ∧ canon s = true ∧ accessCases s (Master.port 0) (s.twriteNeeds twPacket) = true
        ∧ twReads s = (some (leBytes 16 rec), true, some (if rec = 2 ^ 36 * 5 then 0 else 1))
        ∧ (rec ≠ 0 → rec ≠ 2 ^ 36 * 5 → (chanRecOf rec).sigBytes = 64 ∧ (chanRecOf rec).kind = 0
          ∧ s.token (chanRecOf rec).target (chanRecOf rec).token + 1 * (chanRecOf rec).n ≤ 65535)
        ∧ (rec = 0 → (chanRecOf rec).sigBytes = 0))
      ∧ (∀ a ∈ [4096, 2 ^ 36 * 5],
        let s := goneAt a (twAt (2 ^ 36 * 5))
        s.anyWaits (s.twriteNeeds twPacket) = false ∧ s.tagsReady (Master.port 0) (accPools (s.twriteNeeds twPacket)) = true
          ∧ ((twReads s).1.isSome = decide (a ≠ 4096)) ∧ (a ≠ 4096 → (twReads s).2.1 = false))
      ∧ (let a := mkPacket 1 1 0 false 0 0 0 9 0 []
        ((got (.pkt a) run).port 0).rxQ = .pkt a :: [] ∧ (got (.pkt a) run).forThis a = true ∧ (got (.pkt a) run).mustDiscard 0 a = false
          ∧ a.fields.cls = 1 ∧ a.fields.kind = 1) := by
  decide +kernel

/-- A gateway's reply to Flume 0's request under tag 9, behind `l`. -/
def replyPacket (kind status n : Nat) : Packet := mkPacket 2 kind 0 false 8192 0 0 9 0 (leBytes 4 status ++ List.replicate n 5)
def replyAt (k : Packet) (w : BulkWait) (l : List BulkWait) : State :=
  withFlume (fun x => { x with state := .active, cur := some (newTask 4096 (memDesc 0) 0 0), bulk := l ++ [w] }) (got (.pkt k) run)
/-- An earlier request on the same bytes. -/
def earlier : BulkWait := ⟨8, 0, 0, some 4096, 64, 0, none⟩

/-- WACK and RDATA with STATUS 0, one behind an earlier request, and with STATUS 1. -/
theorem witness_TensorsAndReplies_bulk :
    (∀ v ∈ [(1, (none : Option Nat), 0, ([] : List BulkWait)), (3, some 4096, 64, []), (3, some 4096, 64, [earlier])],
      let k := replyPacket v.1 0 v.2.2.1
      let w : BulkWait := ⟨9, 0, 0, v.2.1, 64, 0, none⟩
      let s := replyAt k w v.2.2.2
      ((s.port 0).rxQ = .pkt k :: [] ∧ s.forThis k = true ∧ s.mustDiscard 0 k = false ∧ k.fields.cls = 2 ∧ k.fields.kind = v.1
        ∧ statusOf k.payload = some 0)
        ∧ (s.flume 0).abortHeld = none ∧ s.bulkOf 0 k.fields.tag = some ((0 : FlumeId).val, w) ∧ s.echoes 0 k w = true
        ∧ k.payload.length = 4 + v.2.2.1 ∧ s.replyWaits 0 k = false ∧ (s.flume 0).heldBehind w = !v.2.2.2.isEmpty
        ∧ ((((taken s).freeTag 0 2 k.fields.tag).freePacket 0 k).memWrite (Master.flume 0) 4096 (k.payload.drop 4)).2 = true)
      ∧ (∀ kind ∈ [1, 3],
        let k := replyPacket kind 1 0
        let w : BulkWait := ⟨9, 0, 0, none, 64, 0, none⟩
        let s := replyAt k w []
        (s.port 0).rxQ = .pkt k :: [] ∧ s.forThis k = true ∧ s.mustDiscard 0 k = false ∧ k.fields.kind = kind
          ∧ (s.flume 0).bulkTodo = [] ∧ (s.flume 0).hostDue = [] ∧ s.bulkOf 0 k.fields.tag = some ((0 : FlumeId).val, w)
          ∧ s.replyWaits 0 k = false ∧ statusOf k.payload ≠ some 0 ∧ (s.flume 0).bulk.filter (fun v => !v.same w) = []
          ∧ (s.flume 0).abortHeld = none ∧ (s.flume 0).offline = false) := by decide +kernel

/-- A tunnelled request of a kind, in direct mode or to this module. -/
def tunPacket (dst kind n : Nat) : Packet := mkPacket 3 kind 0 false 0 dst 0 9 4096 (List.replicate n 1)

/-- Each kind of request; its memory as it stands, hot, or retired. -/
theorem witness_TunnelRequestsAndReplies :
    ∀ dst ∈ [0, 16383], ∀ v ∈ [(0, 4), (1, 0), (2, 64), (3, 0)],
      let k := tunPacket dst v.1 v.2
      let s := got (.pkt k) run
      let size := if k.fields.kind = 2 then k.payload.length else 4 * (k.fields.rdlen + 1)
      let l := memPools k.fields.tunAddr size
      let s1 := (taken s).freePacket 0 k
      let u := s1.useTags Master.host l
      ((s.port 0).rxQ = .pkt k :: [] ∧ s.forThis k = true ∧ s.mustDiscard 0 k = false ∧ k.fields.cls = 3 ∧ k.fields.kind = v.1
          ∧ k.payload.length = v.2)
        ∧ k.fields.dst = dst ∧ k.fields.rdlen = 0 ∧ s.frozen Master.host = false ∧ s.host.accMaj = 1
        ∧ s1.memWaits k.fields.tunAddr size = false ∧ s.host.waiting = [] ∧ s1.tagsReady Master.host l = true
        ∧ (hot s1 k.fields.tunAddr).memWaits k.fields.tunAddr size = true
        ∧ (u.memWriteMasked Master.host k.fields.tunAddr k.payload []).2 = true
        ∧ (u.memRead Master.host k.fields.tunAddr 4).2 = some [0, 0, 0, 0]
        ∧ ((goneAt k.fields.tunAddr u).memRead Master.host k.fields.tunAddr 4).2 = none
        ∧ s1.routeWaits s1.tunMap k.fields.src = false ∧ s1.host.cplHeld = []
        ∧ (s1.routeBy Master.host s1.tunMap k.fields.src).2 = some 0 := by decide +kernel

/-- Port 0 with a memory write or read for a frozen window. -/
def frozenWindow (dst kind : Nat) : State :=
  (got (.pkt (tunPacket dst kind 0)) run).setReg ((masterPage Master.host).base + Reg.header.FREEZE) 1

/-- A frozen window, and a CPL at the head with STATUS 0 and with another. -/
theorem witness_TunnelRequestsAndReplies_head :
    (∀ dst ∈ [0, 16383], ∀ kind ∈ [2, 3],
        (frozenWindow dst kind).frozen Master.host = true ∧ (frozenWindow dst kind).mustDiscard 0 (tunPacket dst kind 0) = false
        ∧ (frozenWindow dst kind).forThis (tunPacket dst kind 0) = true
        ∧ ((frozenWindow dst kind).port 0).rxQ = .pkt (tunPacket dst kind 0) :: [])
      ∧ (∀ status ∈ [0, 2], ∀ read ∈ [true, false],
        let k := mkPacket 3 4 0 false 0 0 0 9 status [1, 2, 3, 4]
        let w : TunWait := ⟨9, read, true, 4, 0⟩
        let s := got (.pkt k) { run with host := { run.host with tun := [w] } }
        (s.port 0).rxQ = .pkt k :: [] ∧ s.forThis k = true ∧ s.mustDiscard 0 k = false ∧ k.fields.cls = 3 ∧ k.fields.kind = 4
          ∧ s.host.tun.find? (fun y => decide (y.tag = k.fields.tag)) = some w ∧ s.host.tunHeld = [] ∧ bits k.fields.rest 2 0 = status
          ∧ s.host.linkUp = true) := by decide +kernel

/-! ## The Weir: reductions -/

/-- A pair of rows of record 0 at port 0 of a ring of four, of a kind; the local row with data `d`. -/
def pairAt (kind : Nat) (d : List Byte) (slice : Bool) : State :=
  { withPort (fun x => { x with localRows := [⟨0, 0, 127, d, 0⟩], upRows := [⟨0, 0, 127, narrowRow, 0⟩] })
      (withColl (collWord kind 0 0 2 4 1) run) with sliceRun := if slice then [⟨⟨0xB, 0⟩, 0, 0, false, false⟩] else [] }
/-- A row whose first block has another exponent. -/
def otherRow : List Byte := blockRow ((rowBlocks narrowRow).1.zipIdx.map (fun x => if x.2 = 0 then { x.1 with x := x.1.x + 1 } else x.1))

/-- Rows that agree, rows that do not, float rows, and a slice. -/
theorem witness_ReduceAddsRowsAndBuckets :
    (∀ kind ∈ [0, 1], ∀ slice ∈ [true, false],
      let s := pairAt kind narrowRow slice
      let l : RedRow := ⟨0, 0, 127, narrowRow, 0⟩
      let r := s.collRec l.coll
      let a := rowBlocks l.data
      let o := addRows a.1 a.1 (rowChecksum a.1) (rowChecksum a.1)
      s.up = true ∧ s.fatal = false ∧ s.sliceHoldsPort 0 = slice ∧ r.kind = kind
        ∧ ((s.adderHeads 0).filterMap s.adderPair).find? (fun x => s.tagsReady (Master.port 0) (s.adderPools x.1)) = some (l, l)
        ∧ rowsMatch a.1 a.1 = true ∧ s.regBit (Reg.port.page 0 + Reg.header.ERR_INJECT) 2 = false ∧ o.2 = rowChecksum o.1)
      ∧ (let s := pairAt 0 otherRow false
        s.sliceHoldsPort 0 = false ∧ ((s.adderHeads 0).filterMap s.adderPair).find? (fun x => s.tagsReady (Master.port 0) (s.adderPools x.1))
            = some (⟨0, 0, 127, otherRow, 0⟩, ⟨0, 0, 127, narrowRow, 0⟩)
          ∧ rowsMatch (rowBlocks narrowRow).1 (rowBlocks otherRow).1 = false ∧ canon s = true ∧ s.jobLive (s.collRec 0).job = true
          ∧ (s.job (s.collRec 0).job).passed = false)
      ∧ (run.adderHeads 0).filterMap run.adderPair = [] := by decide +kernel

/-- A row that lands, of tile 0 at position 1 of a ring of four whose owner it is, with no tag of its channel left. -/
def landRow : State :=
  let s := withPort (fun x => { x with localRows := [⟨0, 0, 127, narrowRow, 0⟩], upRows := [⟨0, 0, 127, narrowRow, 0⟩] })
    (withColl (collWord 0 0 0 0 4 1) run)
  noTags (s.adderPools ⟨0, 0, 127, narrowRow, 0⟩) s

theorem witness_ReduceAddsRowsAndBuckets_noTag :
    landRow.up = true ∧ landRow.fatal = false ∧ landRow.sliceHoldsPort 0 = false
      ∧ ((landRow.adderHeads 0).filterMap landRow.adderPair).find? (fun x => landRow.tagsReady (Master.port 0) (landRow.adderPools x.1)) = none
      ∧ ((landRow.adderHeads 0).filterMap landRow.adderPair).length = 1 := by decide +kernel

/-- A bucket record whose group is one tile, its token there or not; and one of BUCKET_TILES 0. -/
def bucketAt (tiles token : Nat) : State :=
  (withColl (collWord 0 0 0 2 4 1 + 2 ^ 50 + 2 ^ 80 * tiles + 2 ^ 455) run).setReg (Reg.barn.TOKEN 0 0) (BitVec.ofNat 32 token)

theorem witness_ReduceAddsRowsAndBuckets_bucket :
    ∀ n ∈ [0, 1], ∀ k ∈ [0, 1],
      let s := bucketAt n k
      let r := s.collRec 0
      s.bucketRec 0 = some (0, r) ∧ r.tn = 1 ∧ s.token r.tbarn r.tcount = k ∧ s.bucketSliced 0 r = false ∧ s.sliceHoldsPort 0 = false
        ∧ s.up = true ∧ s.fatal = false ∧ (s.bucketGroup 0 r).length = n ∧ s.anyWaits (s.bucketNeeds 0 r) = false
        ∧ s.tagsReady (Master.port 0) (accPools (s.bucketNeeds 0 r)) = true := by decide +kernel

/-- A group with its token that waits for its stack, or for a tag. -/
theorem witness_ReduceAddsRowsAndBuckets_bucketWaits :
    let s := bucketAt 1 1
    let r := s.collRec 0
    (hot s r.srcBase).bucketRec 0 = some (0, r) ∧ (hot s r.srcBase).anyWaits (s.bucketNeeds 0 r) = true
      ∧ (noTags (accPools (s.bucketNeeds 0 r)) s).anyWaits (s.bucketNeeds 0 r) = false
      ∧ (noTags (accPools (s.bucketNeeds 0 r)) s).tagsReady (Master.port 0) (accPools (s.bucketNeeds 0 r)) = false := by decide +kernel

theorem witness_SumChecksumHolds :
    let x : RBlock := ⟨0, 0, 0, false, false, 0, none :: List.replicate 31 (some 2147483647)⟩
    [x].length = [x].length ∧ ∀ y ∈ [x], y.elems.length = 32 := by decide +kernel

/-- A verdict record of a ring, with the symbol of lap 0 held or not; its input is ready. -/
def inputAt (pos ring : Nat) (held : Bool) : State :=
  (withColl (collWord 3 0 0 pos ring 1) run).modJob 0 (fun x => { x with heldVerdict := if held then some (symVerdict 0 0 true false 0) else none })

/-- The verdict's input at position 2 and at position 0 of a ring of four, and alone; and an input that is not ready. -/
theorem witness_VerdictInputAndGather :
    (∀ v ∈ [(2, 4), (0, 4), (0, 1)], ∀ held ∈ [true, false],
      let s := inputAt v.1 v.2 held
      let r := s.collRec 0
      canon s = true ∧ s.verdictRec (0 : JobId) = some (0, r) ∧ s.inputReady 0 r = true ∧ s.regBit Reg.global.LSD_CTRL 0 = false
        ∧ s.regBit Reg.global.LSD_CTRL 1 = false ∧ r.pos = v.1 ∧ r.ring = v.2 ∧ (s.job 0).lateCause = none
        ∧ (s.job 0).heldVerdict.isSome = held ∧ (s.port r.send).link = .down)
      ∧ (let s := (inputAt 2 4 false).modJob 0 (fun x => { x with ready := true })
        s.verdictRec (0 : JobId) = some (0, s.collRec 0) ∧ s.inputReady 0 (s.collRec 0) = false) := by
  decide +kernel

/-- GATHER begins, its all-gathers run; in a job of a late fault they do not. -/
def gatherAt (late : Bool) : State :=
  ((withColl (collWord 2 0 0 2 4 1) run).modJob 0 (fun x => { x with phase := 2, late := late })).setReg (Reg.global.VERDICT 0) 1

theorem witness_VerdictInputAndGather_gather :
    ∀ late ∈ [true, false],
      let s := gatherAt late
      s.gatherReady 0 = true ∧ (s.job 0).late = late ∧ (∀ x ∈ s.collRecs, 1 < (s.gatherRec x.2).ring ∧ x.2.kind = 2 ∧ x.2.job = 0
        ∧ x.2.phase = s.pmSlot 0 3) ∧ s.collRecs ≠ [] := by decide +kernel

/-! ## Device memory and the Mills -/

theorem test_lineAccess_illFormed : exec (.memoryLineAccess 0 0 (.write [1] [true]) .clean .good) run = .refused .illFormed := rfl

/-- The first and the last line of the address space, for a named master and for the last vector unit's. -/
theorem witness_LinesAreAccessed :
    let d := List.replicate 64 (9 : Byte)
    let acc := LineAccess.write d (List.replicate 64 false)
    (LineAccess.write [1] [true]).wellFormed = false ∧ LineAccess.read.wellFormed = true ∧ acc.wellFormed = true ∧ canon run = true
      ∧ (∀ l ∈ [0, 2 ^ 36 - 1], ∀ m ∈ [5, 63], run.memWaits (64 * l) 64 = false ∧ run.lineBad l = false ∧ run.lineCorrected l = false
        ∧ run.channelGone l = false ∧ masterPage m ≠ .unassigned ∧ run.tagsReady m (memPools (64 * l) 64) = true
        ∧ (let v := run.useTags m (memPools (64 * l) 64)
          v.stackSluice (64 * l) m false = (v, false) ∧ v.stackSluice (64 * l) m true = (v, false))
        ∧ (noTags (memPools (64 * l) 64) run).tagsReady m (memPools (64 * l) 64) = false
        ∧ (noTags (memPools (64 * l) 64) run).memWaits (64 * l) 64 = false)
      ∧ addrTier (64 * 0) = .pond ∧ addrTier (64 * (2 ^ 36 - 1)) = .lake ∧ run.up = true ∧ run.fatal = false := by decide +kernel

/-- The last element of the address space, of every type; a misaligned one, a code of no master, and a Mill under a slice. -/
theorem witness_MillOperate :
    (∀ ty ∈ [MillType.fp32, .bf16, .int32, .int64],
      let w := millBytes (MillType.code ty)
      let a : BitVec 42 := BitVec.ofNat 42 (2 ^ 42 - w)
      a.toNat % w = 0 ∧ run.sliceHoldsMill (addrStack a.toNat) = false ∧ masterPage 63 ≠ .unassigned ∧ run.memWaits a.toNat w = false
        ∧ run.up = true ∧ run.tagsReady 63 (memPools a.toNat w) = true ∧ run.stackSluice a.toNat 63 true = (run, false)
        ∧ run.lineBad (a.toNat / 64) = false ∧ run.lineCorrected (a.toNat / 64) = false ∧ (a + 1).toNat % w ≠ 0)
      ∧ canon run = true ∧ masterPage 6 = .unassigned
      ∧ ({ run with sliceRun := [⟨⟨0xA, 0⟩, 0, 0, false, false⟩] } : State).sliceHoldsMill 0 = true := by decide +kernel

theorem witness_MillOperate_numbers :
    (2 ≤ 3 ∧ 2 ^ 63 - 1 < 2 ^ (8 * millBytes 3))
      ∧ (0 < 2 ∧ ((millFmt 0).decode 0x7FC00000).isNaN = true ∧ ((millFmt 1).decode 0x7FC0).isNaN = true) := by
  decide +kernel

/-- A kernel record of a kind: one element, the first moment 4,096 bytes from the master weights. -/
def kernelWord (kind : Nat) : Nat := kind + 2 ^ 96 + 2 ^ 160 * 16
/-- A table of `n` such records, the first at 4096. -/
def kernelAt (kind n : Nat) (st : MkState) : State :=
  (putMem 4096 (leBytes 64 (kernelWord kind))
    (((run.setReg (Reg.mkv.MK_TABLE_LO 0) 4096).setFld (Reg.mkv.MK_CTRL 0) 11 0 (2048 + n)))).modStack 0 (fun x => { x with vu := st })

/-- The first of two records, and the last; and a record of kind 5, which is refused. -/
theorem witness_VectorUnitRuns :
    ∀ kind ∈ [0, 1, 2, 3, 5], ∀ n ∈ [1, 2],
      let s := kernelAt kind n .running
      let d := leBytes 64 (kernelWord kind)
      let a := s.pair (Reg.mkv.MK_TABLE_LO 0) (Reg.mkv.MK_TABLE_HI 0) + 64 * (s.stack 0).mkRec
      let g := s.useTags (Master.mill 0) (mkPools 0 a)
      let x := g.mkRead 0 a 64
      ((s.stack 0).vu = .running ∧ (s.stack 0).mkStopped = false ∧ s.frozen (Master.mill 0) = false ∧ s.selfRefresh 0 = false)
        ∧ s.sliceHoldsMill 0 = false ∧ s.up = true ∧ s.memWaits a 64 = false ∧ s.tally.live = false
        ∧ s.tagsReady (Master.mill 0) (mkPools 0 a) = true ∧ x.2 = some d ∧ canon s = true ∧ s.drawFault false true = none
        ∧ ({ s with springBad := [(8, false)] } : State).drawFault false true = some false
        ∧ kernelOk (leNat d) (s.mkSingle 0) (s.genBase 0 0) (s.genBase 0 1) = decide (kind < 4)
        ∧ (kernelRecOf (leNat d)).count ≤ 32 ∧ (kind < 4 → (kernelRecOf (leNat d)).kind = kind) := by decide +kernel

/-- After the record's group, by the number of records. -/
theorem witness_VectorUnitRuns_group :
    ∀ kind ∈ [0, 1, 2, 3], ∀ n ∈ [1, 2],
      let s := kernelAt kind n .running
      let g := s.useTags (Master.mill 0) (mkPools 0 4096)
      let q := (g.mkRead 0 4096 64).1.mkGroups 0 (kernelRecOf (kernelWord kind)) 1 0
      (q.stack 0).mkStopped = false ∧ (((q.stack 0).mkRec + 1 < q.mkCount 0) ↔ n = 2) := by decide +kernel

/-- A halted unit in single mode or with two generations, and one that waits for RELEASE. -/
theorem witness_VectorUnitRuns_verdict :
    let s := kernelAt 0 1 .halted
    let q := run.modStack 0 (fun x => { x with vu := .awaitRelease })
    let h := run.modStack 0 (fun x => { x with vu := .halted })
    (s.takesClean .host (Reg.mkv.VERDICT_CTRL 0) = true ∧ (s.stack 0).vu = .halted ∧ s.mkCkpt 0 = false ∧ s.selfRefresh 0 = false
        ∧ s.mkSingle 0 = true ∧ s.genFrozen 0 = false ∧ canon s = true)
      ∧ (h.takesClean .host (Reg.mkv.VERDICT_CTRL 0) = true ∧ (h.stack 0).vu = .halted ∧ h.mkCkpt 0 = false ∧ h.mkSingle 0 = false)
      ∧ run.takesClean .host (Reg.mkv.VERDICT_CTRL 0) = true ∧ (run.stack 0).vu ≠ .halted
      ∧ (q.takesClean .host (Reg.mkv.GEN_RELEASE 0) = true ∧ canon q = true ∧ (q.stack 0).vu = .awaitRelease ∧ q.selfRefresh 0 = false)
      ∧ (run.stack 0).vu ≠ .awaitRelease := by
  decide +kernel

/-- A Pond or Lake row to be spared, with `n` spare rows in its bank group. -/
def sparing (l n : Nat) : State := run.modStack 0 (fun x => { x with spareQ := [(l, true)], spare0 := (n, n) })

theorem witness_RowsAreSpared :
    ∀ l ∈ [0, 2 ^ 34], ∀ n ∈ [0, 1],
      let s := sparing l n
      canon s = true ∧ s.spareNow 0 = some (l, true) ∧ s.fpbRuns = true ∧ s.selfRefresh 0 = false ∧ s.up = true
        ∧ addrTier (64 * l) = (if l = 0 then .pond else .lake) ∧ (s.stack 0).spare0 = (n, n) ∧ (s.stack 0).bankSpares = []
        ∧ (s.stack 0).sparesUsed = []
        ∧ s.sliceInChannel 0 (addrTier (64 * l)) = false := by
  decide +kernel

/-- Such a stack has `n` rows left in whatever bank the row stands in. -/
theorem witness_RowsAreSpared_left (g n : Nat) (x : Stack) (hb : x.bankSpares = []) (hu : x.sparesUsed = []) (hs : x.spare0 = (n, n))
    (h : n ≤ 64) : x.leftIn g = n := by
  cases hl : dieLake g <;> simp [Stack.leftIn, Stack.sparesOf, Stack.usedOf, Stack.usedIn, dieRows, hb, hu, hs, hl] <;> omega

/-- GO by the management port and by the host; an address of stack 1. -/
theorem witness_RowsAreSpared_go :
    let s := run.setReg (Reg.rep.REPAIR_ADDR_HI 0) 16
    run.takesClean .mgmt (Reg.rep.REPAIR_CTRL 0) = true ∧ repairWriter .mgmt = true
      ∧ addrStack (run.pair (Reg.rep.REPAIR_ADDR_LO 0) (Reg.rep.REPAIR_ADDR_HI 0)) = 0
      ∧ run.takesClean .host (Reg.rep.REPAIR_CTRL 0) = true ∧ repairWriter .host = false
      ∧ canon run = true ∧ canon s = true ∧ (run.reg ((Page.rep 0).base + Reg.header.ERR_STATUS)).field 7 0 = 0
      ∧ (s.reg ((Page.rep 0).base + Reg.header.ERR_STATUS)).field 7 0 = 0
      ∧ s.takesClean .mgmt (Reg.rep.REPAIR_CTRL 0) = true ∧ addrStack (s.pair (Reg.rep.REPAIR_ADDR_LO 0) (Reg.rep.REPAIR_ADDR_HI 0)) ≠ 0 := by
  decide +kernel

/-! ## Gauge and the supply -/

/-- Readings of a module at `t` °C, 720 mV, 48 V and 10 A, with 1,000 beats of each pace counter. -/
def readings (t : Nat) : Readings :=
  ⟨List.replicate 64 (some 1000), List.replicate 16 (some 720), List.replicate 48 (some t), List.replicate 272 (some 40), some 4800, some 1000⟩

theorem test_gaugeSample_illFormed : exec (.gaugeSample ⟨[], [], [], [], none, none⟩) run = .refused .illFormed := rfl

/-- A sample is due; engine 0's pace counter runs. -/
def sampling : State :=
  { run.setReg (Reg.engine.BEAT_CTRL 0) 1 with gauge := { run.gauge with sampleElapsed := samplePeriod } }

/-- One degree below the trip, and at it. -/
theorem witness_GaugeSamples :
    (⟨[], [], [], [], none, none⟩ : Readings).wellFormed = false
      ∧ (∀ t ∈ [114, 115], (readings t).wellFormed = true ∧ sampling.up = true ∧ samplePeriod ≤ sampling.gauge.sampleElapsed
        ∧ (sampling.takeReadings (readings t)).gauge.prev.pace.getD 0 none = some 1000
        ∧ max ((sampling.takeReadings (readings t)).gauge.prev.hottest false) ((sampling.takeReadings (readings t)).gauge.prev.hottest true) = t)
      ∧ canon sampling = true ∧ sampling.paces 0 = true ∧ sampling.regBit (Reg.engine.BEAT_CTRL 0) 0 = true ∧ sampling.gowell = false
      ∧ sampling.floorMv ≤ 1023 ∧ sampling.granWaits = [] ∧ run.gauge.sampleElapsed < samplePeriod := by decide +kernel

/-- The module in a power state. -/
def inPower (p : Power) : State := { run with module := { run.module with power := p } }
/-- A hold of the input's. -/
def holding : State := { inPower .hold with gauge := { run.gauge with holdRails := [.input] } }

theorem witness_SupplyHoldsAndStops :
    (canon run = true ∧ run.module.power = .run ∧ run.gauge.holdRails = [] ∧ 4500 ≤ Rail.input.warnLevel
      ∧ 660 ≤ Rail.coreEast.warnLevel)
      ∧ (canon holding = true ∧ holding.module.power = .hold ∧ holding.gauge.holdRails = [.input])
      ∧ (∀ p ∈ [Power.start, .test, .run, .hold], (inPower p).module.power ≠ .off ∧ (inPower p).module.power ≠ .stopped)
      ∧ (inPower .off).module.power = .off ∧ (inPower .stopped).module.power = .stopped
      ∧ (∀ p ∈ [Power.start, .run, .hold], (inPower p).monitored = true ∧ canon (inPower p) = true
        ∧ ((inPower p).reg (Page.gauge.base + Reg.header.ERR_STATUS)).field 7 0 = 0)
      ∧ (∀ p ∈ [Power.off, .test, .stopped], (inPower p).monitored = false) := by
  decide +kernel

/-! ## Releases and processors -/

/-- A master frozen with a cause. -/
def frozenAt (m : Nat) : State := run.setReg ((masterPage m).base + Reg.header.FREEZE) 0x201

/-- The host, the first and last processor, barn, Flume and vector unit: the management port releases them, FP-M may not. -/
theorem witness_ReleasesAndErrorClears :
    ∀ m ∈ [0, 2, 5, 8, 15, 16, 47, 48, 63],
      let s := frozenAt m
      let a := (masterPage m).base + Reg.header.FREEZE
      (BitVec.ofNat 6 m).toNat = m ∧ s.takesClean .mgmt a = true ∧ canon s = true ∧ masterPage m ≠ .unassigned ∧ s.fatal = false
        ∧ s.frozen m = true ∧ run.frozen m = false ∧ Writer.mgmt.mayRelease m = true ∧ (m ≠ 3 → s.takesClean (.fp 1) a = true)
        ∧ (Writer.fp 1).mayRelease m = false ∧ s.sliceAt (m - 8) = false ∧ (2 ≤ m → m < 6 → (s.fp (m - 2)).restartHeld = false) := by
  decide +kernel

theorem witness_ReleasesAndErrorClears_status :
    ∀ e ∈ [0x14, 0x9F014], run.takesClean .host e = true ∧ pageOf e ≠ .unassigned ∧ inGranary e = false ∧ run.absentPage e = false
      ∧ repairPage .host (pageOf e) = true ∧ (regDef? e).isSome = true ∧ pageOffset e = Reg.header.ERR_STATUS
      ∧ (pageOf (BitVec.ofNat 26 e).toNat).base + Reg.header.ERR_STATUS = e ∧ e % 4 = 0 ∧ e < 2 ^ 26 ∧ run.tunOffset e = none
      ∧ canon run = true := by decide +kernel

/-- The image a part was shipped with passes while the fused version is 0. -/
theorem slotOk_factory (s : State) (k : Nat) (x : ImageSlot) (h : x.factory = true) (hv : x.valid = true) (h0 : s.fuses.svn = 0) :
    s.slotOk k x = true := by
  simp [State.slotOk, h, hv, h0]

/-- Processor 3 in a module, as `f` makes it. -/
def withFp3 (f : Fp → Fp) (s : State) : State := s.modFp 3 f

/-- A RESTART that was held while FP-P was frozen, made at the release. -/
theorem witness_ReleasesAndErrorClears_held :
    let s := withFp3 (fun x => { x with restartHeld := true }) (frozenAt 5)
    s.takesClean .mgmt ((masterPage 5).base + Reg.header.FREEZE) = true ∧ canon s = true ∧ s.fatal = false ∧ s.frozen 5 = true
      ∧ (s.fp 3).restartHeld = true ∧ ((s.fp 3).slot (s.fp 3).slotB).factory = true ∧ ((s.fp 3).slot (s.fp 3).slotB).valid = true
      ∧ s.fuses.svn = 0 ∧ s.restartsNow 3 < 3 := by decide +kernel

/-- FP-P in RUN: running, frozen, exhausted or past its third restart. -/
theorem witness_ProcessorsRestart :
    let a := Reg.fp.FP_CTRL 3
    let ex := withFp3 (fun x => { x with exhausted := true, state := .halted }) run
    let three := withFp3 (fun x => { x with restartTimes := [0, 0, 0] }) run
    (∀ s ∈ [run, frozenAt 5, ex, three], canon s = true ∧ s.takesClean .host a = true ∧ s.takesClean (.fp 0) a = true
        ∧ s.takesClean (.fp 1) a = true ∧ s.fuses.svn = 0
        ∧ ((s.fp 3).slot (s.fp 3).slotB).factory = true ∧ ((s.fp 3).slot (s.fp 3).slotB).valid = true)
      ∧ (frozenAt 5).frozen (Master.fp 3) = true ∧ run.frozen (Master.fp 3) = false ∧ (run.fp 3).exhausted = false ∧ run.restartsNow 3 < 3
      ∧ run.takesClean (.fp 3) (Reg.fp.WD_KICK 3) = true ∧ (three.fp 3).exhausted = false ∧ 3 ≤ three.restartsNow 3
      ∧ (ex.fp 3).exhausted = true ∧ ex.frozen (Master.fp 3) = false := by
  decide +kernel

/-- FP-P whose watchdog has run out, in RUN and in a start, with GOV_MODE = 1. -/
def lateFp (p : Power) : State :=
  let s := withFp3 (fun x => { x with state := .running, wdElapsed := 10 ^ 9 }) (run.setReg Reg.gauge.GOV_MODE 1)
  { s with module := { s.module with power := p } }

theorem witness_ProcessorsRestart_watchdog :
    (∀ p ∈ [Power.run, .start],
      let s := lateFp p
      canon s = true ∧ s.fatal = false ∧ (s.fp 3).state = .running ∧ (s.fp 3).exhausted = false ∧ s.restartsNow 3 < 3
        ∧ ((s.fp 3).slot (s.fp 3).slotB).factory = true ∧ ((s.fp 3).slot (s.fp 3).slotB).valid = true ∧ s.fuses.svn = 0
        ∧ s.frozen (Master.fp 3) = false ∧ reachedMs (s.fp 3).wdElapsed (s.fld (Reg.fp.WD_PERIOD 3) 15 0) = true
        ∧ s.up = decide (p = .run) ∧ s.starting = decide (p = .start) ∧ (s.fp 3).wdInStart = 0
        ∧ s.regBit Reg.gauge.GOV_MODE 0 = true)
      ∧ reachedMs (run.fp 3).wdElapsed (run.fld (Reg.fp.WD_PERIOD 3) 15 0) = false := by decide +kernel

/-- Every processor runs version 5, fused at 0; an image of version 0. -/
theorem witness_VersionsUpdatesAttestation_svn :
    let s := (List.range 4).foldl (fun s k => s.setReg (Reg.fp.IMG_SVN k) 5) run
    let y : ImageSlot := ⟨List.replicate 512 0, [0], true⟩
    s.takesClean .host (Reg.fp.SVN_COMMIT 0) = true ∧ s.fuses.svn < s.lowestSvn ∧ s.tunOffset (Reg.fp.SVN_COMMIT 0) = none
      ∧ bit (2#32).toNat 0 = false ∧ y.svn 1 < s.lowestSvn := by decide +kernel

/-- An attestation begun, and none; an update for every processor waits. -/
theorem witness_VersionsUpdatesAttestation :
    let s := run.setFld (Reg.fp.ATT_STATUS 0) 1 0 1
    let u := { run with fps := run.fps.map (fun x => { x with updated := true }) }
    run.up = true ∧ run.fatal = false ∧ run.fpbRuns = true
      ∧ run.takesClean .host (Reg.fp.ATT_CTRL 0) = true ∧ run.fld (Reg.fp.ATT_STATUS 0) 1 0 ≠ 1
      ∧ canon s = true ∧ s.takesClean .host (Reg.fp.ATT_CTRL 0) = true ∧ s.fld (Reg.fp.ATT_STATUS 0) 1 0 = 1 ∧ s.up = true
      ∧ s.fatal = false ∧ s.fpbRuns = true
      ∧ (let a := s.pair (Reg.fp.ATT_ADDR_LO 0) (Reg.fp.ATT_ADDR_HI 0)
        let l := accPools [(a, 512)]
        s.memWaits a 512 = false ∧ s.tagsReady (Master.fp 0) l = true ∧ (s.setFld (Reg.ctl.MEM_STATUS 0) 4 4 1).memWaits a 512 = true
          ∧ (noTags l s).memWaits a 512 = false ∧ (noTags l s).tagsReady (Master.fp 0) l = false)
      ∧ s.host.linkUp = true ∧ s.host.d3hot = false
      ∧ ({ s with host := { s.host with msix := [(4 * 37 + 3, 0)] } } : State).host.msixMasked 37 = false
      ∧ (canon u = true ∧ u.up = true ∧ u.fpbRuns = true ∧ u.fuses.svn = 0 ∧ ∀ k, k < 4 → (u.fp k).updated = true
        ∧ (u.fp k).exhausted = false
        ∧ u.frozen (Master.fp k) = false ∧ ((u.fp k).slot (!(u.fp k).slotB)).factory = true
        ∧ ((u.fp k).slot (!(u.fp k).slotB)).valid = true) := by
  decide +kernel

/-- An update that is being written; a start abandons it, and its slot stays invalid (R423). -/
theorem witness_VersionsUpdatesAttestation_update :
    let t := run.updateSlot 1 [1] [2]
    (t.fp 1).writing = true ∧ t.fpbRuns = true ∧ ((t.endUpdate 1).fp 1).writing = false
      ∧ (((t.atStart true).fp 1).slot true).valid = false ∧ (((t.atStart true).fp 1).slot false).valid = true := by decide +kernel

/-! ## Starts and power -/

/-- OFF, with the junction cold or no input yet. -/
def offAt (held : Bool) : State := { State.reset with module := { Module.reset with power := .off, coldHeld := held, mgmtOn := held } }
/-- A second after a start has failed. -/
def failedAt : State := { State.reset with module := { Module.reset with failTicks := some 156250000 } }

/-- What a start finds where everything passes, as far as step `upTo`; the fuse map bad or not. -/
def passed (upTo : Nat) (fuse : Bool) : StartOutcome :=
  ⟨upTo, [], [], [], [], [], [], [], false, fuse, 0, List.replicate 16 (1, 1), [], List.replicate 16 0, List.replicate 16 40⟩
/-- A start, at step `n`. -/
def startAt (n : Nat) (warm : Bool) : State := { State.reset with module := { Module.reset with startStep := n, startWarm := warm } }
/-- A start at its time limit; a third cold start in a row; a start whose images run; one whose processors have no image that passes. -/
def limitAt (w : Bool) : State :=
  { State.reset with module := { Module.reset with startWarm := w, startTicks := if w then 1562500000 else 9375000000 } }
def thirdStart : State := State.reset.setFld Reg.global.START_STATUS 21 20 2
def loadedStart (n : Nat) (warm : Bool) : State :=
  { startAt n warm with fps := Vector.replicate 4 { Fp.reset with state := .running, wdElapsed := 10 ^ 9, wdInStart := 1 } }
def noImage : State := { State.reset with fps := Vector.replicate 4 { Fp.reset with slots := Vector.replicate 2 ⟨[], [], false⟩ } }

/-- Every cause: power-on at 5 °C exactly, the junction warm, one second after a failure, START_CTRL, and the pins. -/
theorem witness_StartsBegin :
    (canon (offAt false) = true ∧ isNext (exec (.powerOn ⟨0, true, false⟩ 5) (offAt false)) = true ∧ (offAt false).module.power = .off
        ∧ (offAt false).module.coldHeld = false)
      ∧ (canon (offAt true) = true ∧ isNext (exec .junctionReady (offAt true)) = true ∧ (offAt true).module.coldHeld = true)
      ∧ (canon failedAt = true ∧ isNext (exec .forceCold failedAt) = true ∧ failedAt.module.power = .start ∧ failedAt.fatal = false
        ∧ failedAt.module.failTicks = some 156250000 ∧ reachedMs 156250000 1000 = true)
      ∧ (canon run = true ∧ run.up = true ∧ run.fatal = false ∧ run.takesClean .host Reg.global.START_CTRL = true
        ∧ run.sliceRun = [] ∧ run.module.startDue = none ∧ run.host.waiting = [] ∧ run.host.winHeld = []
        ∧ ∀ c ∈ [Instr.warm .host, .cold .host, .modRstN, .perstN, .hotReset], isNext (exec c run) = true)
      ∧ State.reset.up = false ∧ (Straps.mk 0 true true).testMode = true
      ∧ (loadedStart 4 false).up = false ∧ (loadedStart 4 false).takesClean (.fp 0) Reg.global.START_CTRL = true
      ∧ (let q : State := { run with sliceRun := [⟨⟨0xB, 0⟩, 0, 0, false, false⟩] }
        q.sliceRun ≠ [] ∧ q.module.startDue = none ∧ q.up = true ∧ q.fatal = false
          ∧ q.takesClean .host Reg.global.START_CTRL = true) := by
  decide +kernel

/-- Every step of a cold and of a warm start passes, alone or with those after it. -/
theorem witness_StartsEnd :
    (∀ warm ∈ [true, false], ∀ n ∈ [1, 2, 3, 5, 9, 12],
      let s := if n ≤ 3 then startAt n warm else loadedStart n warm
      canon s = true ∧ s.starting = true ∧ s.module.startStep = n ∧ s.module.startWarm = warm
        ∧ reachedMs s.module.startTicks (if warm then 10000 else 60000) = false ∧ (3 < n → ∀ k, k < 4 → (s.fp k).state = .running)
        ∧ (passed n false).fuseMapBad = false ∧ (passed n false).blockFailed = false ∧ (passed n false).upTo = n)
      ∧ (passed 12 false).upTo = 12 ∧ (passed 1 false).upTo < (startAt 2 false).module.startStep := by
  decide +kernel

/-- The fuse map, the images, a block, a watchdog and the time limit; a third cold start in a row. -/
theorem witness_StartsEnd_fails :
    (∀ s ∈ [State.reset, thirdStart, noImage, loadedStart 4 false], canon s = true ∧ s.starting = true ∧ s.module.startWarm = false
        ∧ 1 ≤ s.module.startStep ∧ s.module.startStep ≤ 4 ∧ reachedMs s.module.startTicks 60000 = false)
      ∧ (State.reset.module.startStep ≤ 2 ∧ (passed 12 true).fuseMapBad = true ∧ State.reset.fld Reg.global.START_STATUS 21 20 < 2)
      ∧ 2 ≤ thirdStart.fld Reg.global.START_STATUS 21 20
      ∧ ((noImage.fp 0).exhausted = false ∧ ∀ b, ((noImage.fp 0).slot b).valid = false)
      ∧ ({ passed 12 false with blockFailed := true } : StartOutcome).blockFailed = true
      ∧ (∀ w ∈ [true, false], canon (limitAt w) = true ∧ (limitAt w).starting = true ∧ (limitAt w).module.startWarm = w
        ∧ reachedMs (limitAt w).module.startTicks (if w then 10000 else 60000) = true)
      ∧ (∀ k : FpId, ((loadedStart 4 false).fp k).state = .running ∧ 1 ≤ ((loadedStart 4 false).fp k).wdInStart
        ∧ (loadedStart 4 false).frozen (Master.fp k) = false
        ∧ reachedMs ((loadedStart 4 false).fp k).wdElapsed ((loadedStart 4 false).fld (Reg.fp.WD_PERIOD k) 15 0) = true) := by
  decide +kernel

theorem witness_StartsEnd_images (k : Nat) (h : k < 4) :
    State.reset.slotOk k ((State.reset.fp k).slot (State.reset.fp k).slotB) = true := by
  have h0 : State.reset.fuses.svn = 0 := by decide +kernel
  have h1 : ∀ k, k < 4 → ((State.reset.fp k).slot (State.reset.fp k).slotB).factory = true
      ∧ ((State.reset.fp k).slot (State.reset.fp k).slotB).valid = true := by
    decide +kernel
  exact slotOk_factory _ k _ (h1 k h).1 (h1 k h).2 h0

theorem witness_PowerClocksAndPcie :
    let st := { run with module := { run.module with power := .stopped } }
    let q := { run with host := { run.host with pba := 2 ^ 63, msix := [(255, 0)] } }
    st.module.power = .stopped ∧ run.module.ref156 = true ∧ run.up = true ∧ run.module.straps.pcieEn = true ∧ run.host.linkUp = true
      ∧ (∀ f, f < 32 → run.holdsHostTag f = false) ∧ run.fatal = false ∧ canon run = true
      ∧ CMap.wf msixDefault q.host.msix = true ∧ q.bellOpen = true ∧ bit q.host.pba.toNat 63 = true ∧ q.host.msixMasked 63 = false := by
  decide +kernel

/-! ## The host -/

/-- The state a command leaves. -/
def after (o : Host.Outcome State Fault Refusal) : State :=
  match o with
  | .next t => t
  | _ => run

theorem test_memoryWindow_illFormed : exec (.memoryWindowAccess (.write 0 [1] []) .good) run = .refused .illFormed := rfl

/-- The last byte of the window, and one byte past it. -/
theorem witness_MemoryWindow :
    let o : BitVec 36 := BitVec.ofNat 36 (2 ^ 36 - 1)
    let a := run.windowAddr o.toNat
    let x : HostWait := ⟨a, .read o 1, 0, none⟩
    let g := run.useTags Master.host (memPools a 1)
    let n := noTags (memPools a 1) run
    (MemAccess.write 0 [1] []).wellFormed = false ∧ (MemAccess.read o 2).wellFormed = true
      ∧ 2 ^ 36 < (MemAccess.read o 2).offset + (MemAccess.read o 2).size
      ∧ ((MemAccess.read o 1).wellFormed = true ∧ (MemAccess.read o 1).offset + (MemAccess.read o 1).size ≤ 2 ^ 36
        ∧ (MemAccess.write o [7] [true]).wellFormed = true)
      ∧ (∀ s ∈ [run, n, hot run a], s.windowAddr o.toNat = a ∧ s.host.linkUp = true ∧ s.up = true ∧ s.windowClosed = false
        ∧ s.memTunnelled = false ∧ s.host.accMaj = 1 ∧ s.fatal = false ∧ s.sluiceArmed .host = false ∧ s.host.winHeld = []
        ∧ s.host.waiting.any (fun y => y.meets x) = false)
      ∧ (run.memWaits a 1 = false ∧ run.tagsReady Master.host (memPools a 1) = true
        ∧ g.memRead Master.host a 1 = (g, some [0]) ∧ (g.memWriteMasked Master.host a [7] [true]).2 = true ∧ canon run = true)
      ∧ n.memWaits a 1 = false ∧ n.tagsReady Master.host (memPools a 1) = false ∧ (hot run a).memWaits a 1 = true := by decide +kernel

/-- A WIN_BASE write that waits behind an access. -/
def baseHeld : State := { run with host := { run.host with waiting := [⟨0, .read 0 4, 0, none⟩], winHeld := [.base 5] } }

/-- An access behind it; misaligned writes of both sizes; configuration reads before and after the module runs. -/
theorem witness_MemoryWindow_others :
    (MemAccess.read 0 4).wellFormed = true ∧ baseHeld.host.winHeld ≠ [] ∧ baseHeld.windowClosed = false ∧ baseHeld.memTunnelled = false
      ∧ baseHeld.windowBusy = true ∧ baseHeld.host.accMaj = 1 ∧ baseHeld.sluiceArmed .host = false
      ∧ (∀ s ∈ [run, baseHeld], s.host.linkUp = true ∧ s.up = true ∧ s.host.d3hot = false ∧ s.fatal = false)
      ∧ (3#26).toNat % (if (none : Option Word).isSome then 8 else 4) ≠ 0 ∧ (4#26).toNat % (if (some 0#32).isSome then 8 else 4) ≠ 0
      ∧ (let s := { State.reset with host := { HostIf.reset with linkUp := true } }
        s.host.linkUp = true ∧ s.up = false) := by decide +kernel

/-- An access that waits for a stack in self-refresh, behind it one to its line, and the time at which it is aborted. -/
theorem witness_MemoryWindow_wait :
    let x : HostWait := ⟨0, .read 0 4, 0, none⟩
    let s := { (run.setFld (Reg.ctl.MEM_STATUS 0) 4 4 1) with time := 156250, host := { run.host with waiting := [x] } }
    s.host.waiting.find? (fun y => s.waitExpired y) = some x ∧ x.reply = none ∧ s.host.linkUp = true ∧ s.memWaits 0 4 = true
      ∧ s.host.waiting.any (fun y => y.meets x) = true ∧ s.windowClosed = false ∧ s.memTunnelled = false
      ∧ s.windowAddr (MemAccess.read 0 4).offset = 0 := by decide +kernel

/-- The tunnel of the Register window in direct mode, or to the module of TUN_CTRL. -/
def tunnel (direct : Bool) (f : HostIf → HostIf) : State :=
  { ((run.setReg Reg.global.TUN_CTRL (if direct then 0x44000 else 0x4001)).setReg Reg.global.TUN_TMO 1) with host := f run.host, time := 157 }
/-- A route table that names no port for that module. -/
def unrouted : State := putMem (tunnel false id).tunNode [0xFF] (tunnel false id)

theorem witness_TunnelHead :
    let op := TunnelOp.regRead 0x10000 2
    let x : TunWait := ⟨63, true, false, 8, 0⟩
    let e := tunnel true (fun h => { h with tunErr := true })
    let full := tunnel true (fun h => { h with tun := (List.range 64).map (fun n => ⟨n, true, false, 8, 0⟩) })
    let wait := hot (tunnel false id) ((tunnel false id).routeAddr (tunnel false id).tunMap (tunnel false id).tunNode)
    let w := tunnel true (fun h => { h with tun := [x] })
    (TunnelOp.regRead 0x10000 3).wellFormed = false ∧ op.wellFormed = true
      ∧ (∀ q ∈ [tunnel true id, tunnel false id, unrouted, full, wait, e], q.host.linkUp = true ∧ q.up = true ∧ q.windowClosed = false
        ∧ q.sluiceArmed .host = false ∧ (q.tunReqs op).length = 1 ∧ q.host.tunHeld = [] ∧ q.host.winHeld = [])
      ∧ e.host.tunErr = true ∧ full.host.tunErr = false ∧ 64 ≤ full.host.tun.length
      ∧ wait.host.tunErr = false ∧ wait.tunDirect = false ∧ wait.routeWaits wait.tunMap wait.tunNode = true
      ∧ (∀ q ∈ [tunnel true id, tunnel false id, unrouted], q.host.tunErr = false ∧ q.host.tun.length < 64)
      ∧ (tunnel true id).tunDirect = true ∧ (tunnel true id).fld Reg.global.TUN_CTRL 23 19 < 24
      ∧ (∀ q ∈ [tunnel false id, unrouted], q.tunDirect = false ∧ q.routeWaits q.tunMap q.tunNode = false)
      ∧ ((tunnel false id).routeBy Master.host (tunnel false id).tunMap (tunnel false id).tunNode).2.any (fun p => decide (p < 24)) = true
      ∧ (unrouted.routeBy Master.host unrouted.tunMap unrouted.tunNode).2 = none
      ∧ w.host.tun.find? (fun y => decide (y.tag = (63 : Fin 64).val)) = some x ∧ w.host.tunHeld = []
      ∧ reachedUs (w.time - x.since) (w.fld Reg.global.TUN_TMO 23 0) = true
      ∧ w.takesClean .mgmt Reg.global.TUN_STATUS = true ∧ w.takesClean .mgmt Reg.global.TUN_CTRL = true ∧ w.host.tun ≠ []
      ∧ (tunnel true id).takesClean .mgmt Reg.global.TUN_CTRL = true ∧ (tunnel true id).host.tun = [] := by decide +kernel

theorem witness_ReadsWithEffect :
    (∀ w ∈ [Writer.host, .mgmt, .fp 3], run.sluiceArmed w = false) ∧ run.host.linkUp = true ∧ run.up = true ∧ run.host.d3hot = false
      ∧ (∀ f ∈ [true, false], (if f then run.freeze Master.host Cause.FORMAT else run).frozen Master.host = f)
      ∧ (∀ a ∈ [Reg.engine.WORK_BEATS_LO 63, Reg.gleaner.GL_TIME_LO], run.regTunnelled a = false ∧ a % 8 = 0)
      ∧ Reg.flume.FL_BYTES_LO 31 % 4 = 0 ∧ Reg.flume.FL_BYTES_LO 31 % 8 ≠ 0
      ∧ run.module.mgmtOn = true ∧ run.frozen Master.mgmt = false ∧ run.frozen (Master.fp 3) = false ∧ (run.fp 3).state = .running
      ∧ run.present 63 = true
      ∧ ((withFlume (fun x => { x with cur := some (newTask 4096 (memDesc 0) 0 0) }) run).flume 0).cur
        = some (newTask 4096 (memDesc 0) 0 0) := by decide +kernel

/-! ## Register writes -/

/-- Past the last page, and the last word below the Granary windows. -/
theorem witness_UnassignedReadsZero :
    (∀ a ∈ [2 ^ 26 - 1, 0x1FFFFC, 0x1FFFF8], pageOf (BitVec.ofNat 26 a).toNat = .unassigned ∧ run.tunOffset a = none)
      ∧ run.frozen Master.mgmt = false ∧ (∀ w ∈ [Writer.host, .mgmt], run.sluiceArmed w = false)
      ∧ (0x1FFFFC#26).toNat % (if (none : Option Word).isSome then 8 else 4) = 0
      ∧ (0x1FFFF8#26).toNat % (if (some 5#32).isSome then 8 else 4) = 0 ∧ pageOf ((0x1FFFF8#26).toNat + 4) = .unassigned := by decide +kernel

theorem witness_RegisterWrites :
    (∀ a ∈ [Reg.global.page + Reg.header.VERSION, Reg.global.LOCK, Reg.host.WIN_BASE, Reg.tally.TALLY_TIMEOUT, Reg.fp.WD_PERIOD 3,
        Reg.ctl.THERM_CFG 15, Reg.gauge.BO_PACE, Reg.gauge.FW_PACE, Reg.spring.USER_CTRL],
        run.takesClean .mgmt a = true)
      ∧ (Word.field 1#32 15 0 ≠ 0 ∧ Word.field 0xFFFF#32 15 0 ≠ 0) ∧ Word.field 0xFFFF0000#32 15 0 = 0
      ∧ (Word.field 0x10000#32 22 16 = 1 ∧ Word.field 0x640000#32 22 16 = 100)
      ∧ Word.field 0xFFFF#32 22 16 = 0 ∧ 100 < Word.field 0x650000#32 22 16
      ∧ (Word.field 16#32 8 0 = 16 ∧ Word.field 256#32 8 0 = 256) ∧ Word.field 15#32 8 0 < 16 ∧ 256 < Word.field 257#32 8 0
      ∧ (∀ p ∈ [Page.tally, .fp 3, .ctl 15, .gauge], (run.reg (p.base + Reg.header.ERR_STATUS)).field 7 0 = 0)
      ∧ run.windowBusy = false ∧ run.host.winHeld = [] ∧ baseHeld.windowBusy = true ∧ baseHeld.takesClean .mgmt Reg.host.WIN_BASE = true
      ∧ canon run = true := by
  decide +kernel

/-- A mismatch of SEED3, of the catch crop's first word, and of STEP, which no user draw reads; a job is live. -/
theorem witness_RegisterWrites_draw :
    let s := withVerdict 0
    (∀ cc ∈ [true, false], (s.seedUpset none).drawFault cc false = none ∧ (s.seedUpset (some 8)).drawFault cc false = none)
      ∧ (s.seedUpset (some 3)).drawFault false false ≠ none ∧ (s.seedUpset (some 3)).drawFault true false = none
      ∧ (s.seedUpset (some 4)).drawFault true false ≠ none ∧ (s.seedUpset (some 4)).drawFault false false = none
      ∧ canon s = true ∧ s.takesClean .mgmt Reg.spring.USER_CTRL = true ∧ s.jobLive 0 = true := by decide +kernel

theorem witness_RegisterWrites_notPassed (i : Nat) : ((withVerdict 0).job i).passed = false := by
  have h : (withVerdict 0).jobs = Vector.replicate 16 Job.reset := rfl
  simp only [State.job, h, Vector.getElem?_replicate]
  split <;> rfl

/-- A register of the last port, and one of the last Mill adder; the page of an engine that is absent. -/
theorem witness_RegisterWrites_plain :
    let a := Reg.port.TMO_LINK 23
    let m := Reg.mad.MA_OPS 15
    let e : BitVec 26 := BitVec.ofNat 26 (Page.engine 63).base
    let s := { run with fuses := { run.fuses with present := run.fuses.present &&& 0x7FFFFFFFFFFFFFFF#64 } }
    canon run = true ∧ (∀ x ∈ [a, m], x % 4 = 0 ∧ run.takesClean .host x = true ∧ run.tunOffset x = none ∧ 0x40 ≤ pageOffset x
        ∧ (regDef? x).isSome = true) ∧ rwsMask m = 0
      ∧ pageOf a = .port 23 ∧ pageOf m = .mad 15
      ∧ canon s = true ∧ s.takesClean .host e.toNat = true ∧ s.absentPage e.toNat = true := by
  decide +kernel

theorem test_granary_illFormed : exec (.granaryWindowWrite .host 0x200000#26 ⟨[], .good⟩) run = .refused .illFormed := rfl

/-- Barn 0 runs: its active bank is live, the other main bank is not. -/
def liveBank : State := withBarn (fun x => { x with phase := .run }) run
/-- A slice of that other bank. -/
def testedBank : State := { liveBank with sliceRun := [⟨⟨0x6, 8⟩, 0, 0, false, false⟩] }

/-- Three bytes at the start of the other main bank; a write to the active one; a slice of the bank; FP-M, which may not write. -/
theorem witness_GranaryAndSnapshotWrites :
    let live : BitVec 26 := 0x200000#26
    let free : BitVec 26 := 0x218000#26
    let d := [1#8, 2#8, 3#8]
    granaryDataOk [] = false ∧ granaryDataOk d = true
      ∧ (∀ a ∈ [live.toNat, free.toNat], (∀ w ∈ [Writer.host, .fp 1], liveBank.takesClean w a = true) ∧ inGranary a = true
        ∧ a % 4 = 0)
      ∧ (∀ i, i < 3 → liveBank.granLive (free.toNat + i) = false) ∧ canon liveBank = true ∧ liveBank.granLive (live.toNat + 0) = true
      ∧ (∀ i, i < 3 → ∃ q ∈ (granSite (free.toNat + i)).toList, liveBank.sliceHoldsGranary q.1 q.2 = false
        ∧ testedBank.sliceHoldsGranary q.1 q.2 = true)
      ∧ testedBank.takesClean .host free.toNat = true ∧ testedBank.granLive (free.toNat + 0) = false
      ∧ Writer.fp 1 ∉ [Writer.host, .mgmt, .fp 0] := by decide +kernel

theorem witness_GranaryAndSnapshotWrites_snapshot :
    (run.barn 0).phase = .idle ∧ run.takesClean .host (Reg.barn.SNAP_DATA 0) = true
      ∧ run.snapWordOk 0 (run.fld (Reg.barn.SNAP_CTRL 0) 4 0) 6143#32 = true ∧ run.takesClean .host (Reg.barn.SNAP_CTRL 0) = true
      ∧ (∀ i, i < 32 → run.snapWordOk 0 i ((run.barn 0).staging.rd i) = true) := by decide +kernel

/-! ## Management and test ports -/

theorem witness_ManagementAndTestPorts :
    let down := { run with host := { run.host with linkUp := false } }
    (∀ s ∈ [run, down], s.module.mgmtOn = true ∧ s.sluiceArmed .mgmt = false ∧ s.up = true ∧ s.frozen Master.mgmt = false
        ∧ s.takesClean .mgmt Reg.global.START_CTRL = true ∧ s.takesClean .mgmt ((masterPage 47).base + Reg.header.FREEZE) = true
        ∧ s.takesClean .mgmt Reg.mgmt.MGMT_EVENT = true ∧ canon s = true ∧ s.tapOn = true)
      ∧ run.host.linkUp = true ∧ down.host.linkUp = false
      ∧ mctpOk 0 0 = false ∧ mctpOk 0 17 = false ∧ mctpOk 2 1 = false ∧ mctpOk (2 ^ 26) 1 = false
      ∧ mctpOk (2 ^ 26 - 4) 1 = true ∧ mctpOk (2 ^ 26 - 64) 16 = true ∧ inGranary 0x3044 = false
      ∧ masterPage 47 ≠ .unassigned ∧ (offAt false).module.mgmtOn = false := by
  decide +kernel

/-- One time that has left the longest window and one that has not, in each list. -/
def aged : State :=
  let l := [0, 10 ^ 16]
  { ((run.modEngine 63 (fun x => { x with chkTimes := l })).modPort 23 (fun x =>
      { x with laneFails := x.laneFails.set 3 l, csumTimes := l })).modStack 15 (fun x => { x with ceRows := [(7, l)] }) with
    time := 10 ^ 16, gauge := { run.gauge with boTimes := l }, fps := run.fps.set 3 { run.fp 3 with restartTimes := l } }

theorem witness_ManagementAndTestPorts_windows :
    let ms := (2 ^ 24 - 1) * 1000
    (∀ us ∈ [ms, ms * 1000], ¬ (aged.time - 0) * 64 ≤ us * 10000 ∧ (aged.time - 10 ^ 16) * 64 ≤ us * 10000)
      ∧ (∀ l ∈ [(aged.engine 63).chkTimes, (aged.port 23).laneFails[3]?.getD [], (aged.port 23).csumTimes, aged.gauge.boTimes,
          (aged.fp 3).restartTimes], l = [0, 10 ^ 16])
      ∧ (aged.stack 15).ceRows[0]? = some (7, [0, 10 ^ 16]) := by decide +kernel

theorem test_event_leaves_window :
    ((after (exec (.eventLeavesWindow (.chk 63)) aged)).engine 63).chkTimes = [10 ^ 16]
      ∧ ((after (exec (.eventLeavesWindow (.ce 15 7)) aged)).stack 15).ceRows = [(7, [10 ^ 16])] := by decide +kernel

/-! ## The whole machine -/

theorem witness_StepKeepsCanonical : ∃ t, step { at0 (ins Opc.NOP 0) with pending := [.nop ⟨0, .clean⟩] } = .next t :=
  next_of_isNext (by decide +kernel)

theorem witness_StepKeepsCanonical_state : (at0 (ins Opc.NOP 0)).Canonical := canonical_of_canon (by decide +kernel)

theorem witness_ResetState : State.reset.Canonical := canonical_of_canon (by decide +kernel)

theorem witness_FusesOnlyRise : ∃ t, step { run with pending := [.svnCommit .host] } = .next t := next_of_isNext (by decide +kernel)

/-! ## Values worked out from the rules -/

/-- The check value of IEEE 802.3's CRC-32 over the digits 1 to 9 (R300). -/
theorem test_crc32_digits : crc32 [0x31, 0x32, 0x33, 0x34, 0x35, 0x36, 0x37, 0x38, 0x39] = 0xCBF43926#32 := by decide +kernel

/-- R247: INT32 ADD wraps and says so; MIN and MAX compare signed; FP32 1 + 1 = 2; a NaN gives the canonical NaN. -/
theorem test_mill_values :
    millElem 0 2 0x7FFFFFFF 1 = (0x80000000, true) ∧ (millElem 1 2 0xFFFFFFFF 1).1 = 0xFFFFFFFF ∧ (millElem 2 2 0xFFFFFFFF 1).1 = 1
      ∧ (millElem 0 0 0x3F800000 0x3F800000).1 = 0x40000000 ∧ (millElem 2 1 0x7F81 0x3F80).1 = 0x7FC0 := by decide +kernel

/-- R181, R182: a loop opens with its counter at 0; WAIT takes its tokens. -/
theorem test_loop_and_wait :
    ((after (exec (.loop ⟨0, .clean⟩) (at0 (ins Opc.LOOP (2 ^ 98 * 7))))).barn 0).loops = [⟨7, 0, 1⟩]
      ∧ (after (exec (.wait ⟨0, .clean⟩) ((at0 (ins Opc.WAIT (2 ^ 114 * 3 + 2 ^ 98 * 5))).setReg (Reg.barn.TOKEN 0 3) 7))).token 0 3 = 2 := by
  decide +kernel

/-- R183, R184: a SIGNAL queues at its issue and reaches its counter when it is sent. -/
theorem test_signal_reaches :
    let s := after (exec (.signal ⟨0, .clean⟩) (at0 (ins Opc.SIGNAL (2 ^ 111 * 5 + 2 ^ 107 * 2 + 2 ^ 91 * 9))))
    (s.barn 0).sigQ.length = 1 ∧ s.token 5 2 = 0 ∧ (after (exec (.signalSend 0) (sigAt 0 0))).token 7 15 = 65535 := by decide +kernel

/-- R155: a reserved opcode freezes the sequencer with FORMAT, and changes nothing else of it. -/
theorem test_reserved_opcode :
    let t := after (exec (.nop ⟨0, .clean⟩) (at0 (ins 0x13 0)))
    t.frozen (Master.barn 0) = true ∧ (t.barn 0).pc = 0 ∧ t.fld ((Page.barn 0).base + Reg.header.FREEZE) 15 8 = Cause.FORMAT := by
  decide +kernel

/-- R190: a corrected instruction word counts in GRANARY_ECC and issues. -/
theorem test_granary_corrected :
    let t := after (exec (.nop ⟨0, .corrected⟩) (at0 (ins Opc.NOP 0)))
    t.fld (Reg.barn.GRANARY_ECC 0) 15 0 = 1 ∧ (t.barn 0).pc = 1 := by decide +kernel

/-- R280, R281: a good descriptor fetched for an ARM becomes current, with PRELOAD in TOKIN. -/
theorem test_arm_runs :
    let t := after (exec (.descriptorFetch ⟨0, .good⟩) (fetching .idle (.arm .host) (putMem 4096 (leBytes 256 (flumeWord 1 1 8192 16384 5)) run)))
    (t.flume 0).state = .active ∧ (t.flume 0).curAddr = 4096 ∧ t.tokin 0 = 5 := by decide +kernel

/-- R246: a Mill addition in memory, its neighbours kept. -/
theorem test_mill_add :
    let s := putMem 8192 [1, 0, 0, 0, 255, 255, 255, 255] run
    (after (exec (.millAdd 0 .int32 8192 2) s)).rawBytes 8192 8 = [3, 0, 0, 0, 255, 255, 255, 255] := by decide +kernel

/-- R471, R474: a register written in a transaction keeps its value until the apply. -/
theorem test_transaction :
    let a : BitVec 26 := BitVec.ofNat 26 Reg.gauge.POL_VMAX
    (after (exec (.rwsWrite .host a 700) (opened []))).fld Reg.gauge.POL_VMAX 9 0 ≠ 700
      ∧ (after (exec .tallyApply (committing [⟨Reg.gauge.POL_VMAX, 700, true⟩]))).fld Reg.gauge.POL_VMAX 9 0 = 700 := by decide +kernel

/-- R302: a flit beyond correction gets a NAK. -/
theorem test_bad_flit :
    let f : Flit := ⟨1, List.replicate 640 0, 0, .uncorrectable⟩
    ((after (exec (.flitReceive 0 f .good) (withPort id run))).port 0).nakSent = true := by decide +kernel

/-- R44: 1,000 beats of a pace counter in 10 µs are a beat of 10 ns, shown as its field's largest value. -/
theorem test_beat_measure : (after (exec (.gaugeSample (readings 40)) sampling)).fld (Reg.engine.BEAT_MEAS 0) 11 0 = 4095 := by
  decide +kernel

/-- R379: an input rail at its warning level holds the module. -/
theorem test_brownout : (after (exec (.brownoutHold .input 4500) run)).module.power = .hold := by decide +kernel

/-- R458: IDCODE's first bit out is its bit 0. -/
theorem test_idcode : ((after (exec .idcode run)).tap.shown.take 4) = [true, true, false, true] := by decide +kernel

/-- The table gives no row a word, so no word spells a command. -/
theorem test_decode_none : decodeTableWord 32 0x1000 = none ∧ (run.withFetchWord 32 0x1000) = run := by decide +kernel

/-! ## Ill-formed operands (WellFormed.lean) -/

theorem test_flit_illFormed : exec (.flitReceive 0 ⟨1, [], 0, .clean⟩ .good) run = .refused .illFormed := rfl

theorem test_tunnel_illFormed : exec (.tunnelRequest ⟨(.memWrite 0 [1]), .good⟩) run = .refused .illFormed := rfl

theorem test_wellFormed_checks :
    (Instr.granaryWindowWrite .host 0 ⟨[], .good⟩).wellFormed = false ∧ (Instr.flitReceive 0 ⟨1, [], 0, .clean⟩ .good).wellFormed = false
      ∧ (Instr.gaugeSample ⟨[], [], [], [], none, none⟩).wellFormed = false
      ∧ (Instr.memoryWindowAccess (.read 0 0) .good).wellFormed = false
      ∧ (Instr.memoryLineAccess 0 0 (.write [1] [true]) .clean .good).wellFormed = false
      ∧ (Instr.tunnelRequest ⟨(.regRead 0 3), .good⟩).wellFormed = false
      ∧ (Instr.nop ⟨0, .clean⟩).wellFormed = true := by decide +kernel

end Sys2Proof.Tests
end

/-! # Accesses that find no register

The sluices of a whole entry, writes that reach no register, and the accesses of the offsets that the register window map leaves
unassigned. -/

section

namespace Sys2Proof.Machine

/-! ## A whole entry that no injection waits for -/

/-- A sluice passes an access as it is while its injection is not armed (R406). -/
theorem State.sluiceInject_of_not_armed {s : State} {base i : Nat} (m : Nat)
    (h : s.regBit (base + Reg.header.ERR_INJECT) i = false) : s.sluiceInject base i m = (s, false) := by
  simp [State.sluiceInject, h]

@[simp] theorem State.sluiceParity_good (s : State) (m : Nat) : s.sluiceParity .good m = (s, false) := rfl

/-- The sluice of the host's and of the management port's accesses passes a whole entry as it is; a processor's accesses cross none. -/
theorem State.writerSluice_good {s : State} {w : Writer} (h : s.sluiceArmed w = false) : s.writerSluice w .good = (s, false) := by
  cases w with
  | host => simp [State.writerSluice, State.pcieSluice, State.sluiceInject_of_not_armed Master.host h]
  | mgmt => simp [State.writerSluice, State.mgmtSluice, State.sluiceInject_of_not_armed Master.mgmt h]
  | fp k => rfl

/-- A write with a whole entry has its effect where it is served, and else none. -/
theorem State.put_good {s : State} {w : Writer} (h : s.sluiceArmed w = false) (a : Nat) (f : State → State) :
    s.put w a f = if s.takesWrite w a then f s else s := by
  simp [State.put, State.writerSluice_good h]

/-! ## Register writes -/

/-- A REGISTER_WRITE with a whole entry that the tunnel does not carry writes its words in ascending address (R441). -/
theorem State.registerWrite_good {s : State} {w : Writer} {a : Nat} (v : RegData) (harmed : s.sluiceArmed w = false)
    (htun : w = .host → s.tunOffset a = none) :
    s.registerWrite w a v .good =
      if s.takesWrite w a then (regWords a v).foldl (fun s x => s.writeWord w x) s else s := by
  have hhere : ¬ (w = .host ∧ (s.tunOffset a).isSome) := fun ⟨hw, hsome⟩ => by simp [htun hw] at hsome
  rw [State.registerWrite, if_neg hhere, State.put_good harmed]

theorem exec_registerWrite (w : Writer) (a : BitVec 26) (v : Sluiced RegData) (s : State) :
    exec (.registerWrite w a v) s = execRegisterWrite w a v s := by
  rfl

theorem execRegisterWrite_of_aligned {a : BitVec 26} {v : RegData} (h : regAligned a.toNat v.hi.isSome = true) (w : Writer)
    (p : SluiceParity) (s : State) : execRegisterWrite w a ⟨v, p⟩ s = .next (s.registerWrite w a.toNat v p) := by
  simp [execRegisterWrite, h]

/-- Where it is not aligned, only the host's is an access that R441 does not accept. -/
theorem execRegisterWrite_of_not_aligned {w : Writer} {a : BitVec 26} {v : RegData} (h : regAligned a.toNat v.hi.isSome = false)
    (hw : w ≠ .host) (p : SluiceParity) (s : State) : execRegisterWrite w a ⟨v, p⟩ s = .next s := by
  simp [execRegisterWrite, h, hw]

/-- Words that each leave the state as it is leave it together. -/
theorem State.writeWords_eq_self {s : State} {w : Writer} {l : List (Nat × Word)} (h : ∀ x ∈ l, s.writeWord w x = s) :
    l.foldl (fun s x => s.writeWord w x) s = s := by
  induction l with
  | nil => rfl
  | cons x l ih =>
    rw [List.foldl_cons, h x List.mem_cons_self]
    exact ih fun y hy => h y (List.mem_cons_of_mem x hy)

/-- The offsets of a register write: its own, and four above it where it has a high word. -/
theorem regWords_mem {a : Nat} {v : RegData} {x : Nat × Word} (hx : x ∈ regWords a v) :
    x.1 = a ∨ (v.hi.isSome = true ∧ x.1 = a + 4) := by
  obtain ⟨lo, hi⟩ := v
  cases hi with
  | none =>
    obtain rfl : x = (a, lo) := List.mem_singleton.mp hx
    exact .inl rfl
  | some y =>
    obtain rfl | rfl : x = (a, lo) ∨ x = (a + 4, y) := List.mem_pair.mp hx
    · exact .inl rfl
    · exact .inr ⟨rfl, rfl⟩

/-! ## Offsets of no page (R7) -/

@[simp] theorem State.readReg_unassigned {a : Nat} (h : pageOf a = .unassigned) (s : State) : s.readReg a = 0 := by
  simp [State.readReg, h]

@[simp] theorem State.readEffect_unassigned {a : Nat} (h : pageOf a = .unassigned) (s : State) : s.readEffect a = s := by
  simp [State.readEffect, h]

theorem unassignedAddr_unassigned {a : Nat} (h : pageOf a = .unassigned) : unassignedAddr a = true := by
  simp [unassignedAddr, h]

/-- The management port reads 0 there, whether pages have power or not. -/
theorem State.mgmtWord_unassigned {s : State} {a : Nat} (h : pageOf a = .unassigned) (hf : s.frozen Master.mgmt = false) :
    s.mgmtWord a = (0, s) := by
  cases hr : s.mgmtReads a
  · simp [State.mgmtWord, hf, hr, unassignedAddr_unassigned h]
  · simp [State.mgmtWord, hf, hr, h]

@[simp] theorem State.writeReg_unassigned {a : Nat} (h : pageOf a = .unassigned) (s : State) (w : Writer) (v : Word) :
    s.writeReg w a v = s := by
  simp [State.writeReg, h]

theorem State.writeWord_unassigned {x : Nat × Word} (h : pageOf x.1 = .unassigned) (s : State) (w : Writer) :
    s.writeWord w x = s := by
  simp [State.writeWord, h]

/-- A REGISTER_WRITE whose words all go to no page changes nothing. -/
theorem State.registerWrite_unassigned {s : State} {w : Writer} {a : Nat} {v : RegData} (h : pageOf a = .unassigned)
    (hhi : v.hi.isSome = true → pageOf (a + 4) = .unassigned) (harmed : s.sluiceArmed w = false)
    (htun : w = .host → s.tunOffset a = none) : s.registerWrite w a v .good = s := by
  have hwords : ∀ x ∈ regWords a v, s.writeWord w x = s := fun x hx => by
    apply State.writeWord_unassigned
    rcases regWords_mem hx with hlo | ⟨hsome, hlo⟩
    · rw [hlo, h]
    · rw [hlo, hhi hsome]
  rw [State.registerWrite_good v harmed htun, State.writeWords_eq_self hwords, ite_self]

/-- Settles O54, by cases on the alignment of the write: an aligned one writes its words, each to no page; one that is not aligned is
no host's, and does nothing. -/
theorem unassignedReadsZero : Obligations.UnassignedReadsZero := by
  intro w a v s h
  refine ⟨State.readReg_unassigned h s, State.readEffect_unassigned h s, State.mgmtWord_unassigned h, fun harmed hhost hhi => ?_⟩
  rw [exec_registerWrite]
  cases hal : regAligned a.toNat v.hi.isSome with
  | true =>
    rw [execRegisterWrite_of_aligned hal, State.registerWrite_unassigned h hhi harmed fun hw => (hhost hw).1]
  | false =>
    have hw : w ≠ .host := fun hw => absurd (hhost hw).2 (of_decide_eq_false hal)
    exact execRegisterWrite_of_not_aligned hal hw .good s

end Sys2Proof.Machine

end

/-! # Fields of a word

What a field, or a bit, of a word reads as after a field of it was written; the offsets of pages. -/

section

namespace Sys2Proof

theorem bit_eq_testBit (v i : Nat) : bit v i = v.testBit i := by
  simp [bit, Nat.testBit_eq_decide_div_mod_eq]

theorem bits_lt (v hi lo : Nat) : bits v hi lo < 2 ^ (hi - lo + 1) := Nat.mod_lt _ (Nat.two_pow_pos _)

theorem testBit_bits (v hi lo i : Nat) : (bits v hi lo).testBit i = (decide (i < hi - lo + 1) && v.testBit (lo + i)) := by
  simp [bits, Nat.testBit_mod_two_pow, Nat.testBit_div_two_pow, Nat.add_comm]

/-- A write of the field [hi:lo] reaches its own bits alone. -/
theorem Word.testBit_setBits (x : Word) {hi lo : Nat} (hle : lo ≤ hi) (hhi : hi < 32) (v i : Nat) :
    (x.setBits hi lo v).toNat.testBit i = if lo ≤ i ∧ i ≤ hi then v.testBit (i - lo) else x.toNat.testBit i := by
  by_cases hi32 : i < 32
  · have hmask : ((2 ^ (hi - lo + 1) - 1) * 2 ^ lo).testBit i = decide (lo ≤ i ∧ i ≤ hi) := by
      rw [Nat.testBit_mul_two_pow, Nat.testBit_two_pow_sub_one, ← Bool.decide_and]
      exact decide_eq_decide.mpr (by omega)
    have hval : (v % 2 ^ (hi - lo + 1) * 2 ^ lo).testBit i = (decide (lo ≤ i ∧ i ≤ hi) && v.testBit (i - lo)) := by
      rw [Nat.testBit_mul_two_pow, Nat.testBit_mod_two_pow, ← Bool.and_assoc, ← Bool.decide_and]
      exact congrArg (· && _) (decide_eq_decide.mpr (by omega))
    simp only [BitVec.testBit_toNat, Word.setBits, BitVec.getLsbD_or, BitVec.getLsbD_and, BitVec.getLsbD_not,
      BitVec.getLsbD_ofNat, hmask, hval, hi32]
    by_cases hin : lo ≤ i ∧ i ≤ hi <;> simp [hin]
  · have hout : ¬ (lo ≤ i ∧ i ≤ hi) := by omega
    have hge : 32 ≤ i := Nat.le_of_not_lt hi32
    simp [BitVec.testBit_toNat, hout, BitVec.getLsbD_of_ge _ i hge]

/-- A field written reads as the low bits of the value written. -/
theorem Word.field_setBits_same (x : Word) {hi lo : Nat} (hle : lo ≤ hi) (hhi : hi < 32) {v : Nat}
    (hv : v < 2 ^ (hi - lo + 1)) : (x.setBits hi lo v).field hi lo = v := by
  apply Nat.eq_of_testBit_eq
  intro i
  rw [Word.field, testBit_bits, Word.testBit_setBits x hle hhi]
  by_cases hin : i < hi - lo + 1
  · have hfld : lo ≤ lo + i ∧ lo + i ≤ hi := by omega
    simp [hin, hfld]
  · have hbig : v < 2 ^ i := hv.trans_le (Nat.pow_le_pow_right (by decide) (by omega))
    simp [hin, Nat.testBit_lt_two_pow hbig]

/-- A field apart from the one written reads as before. -/
theorem Word.field_setBits_apart (x : Word) {hi lo hi' lo' : Nat} (hle : lo ≤ hi) (hhi : hi < 32) (hle' : lo' ≤ hi')
    (h : hi < lo' ∨ hi' < lo) (v : Nat) : (x.setBits hi lo v).field hi' lo' = x.field hi' lo' := by
  apply Nat.eq_of_testBit_eq
  intro i
  rw [Word.field, Word.field, testBit_bits, testBit_bits, Word.testBit_setBits x hle hhi]
  by_cases hin : i < hi' - lo' + 1
  · have hout : ¬ (lo ≤ lo' + i ∧ lo' + i ≤ hi) := by omega
    rw [if_neg hout]
  · simp [hin]

/-- A bit apart from the field written reads as before. -/
theorem Word.bit_setBits_apart (x : Word) {hi lo i : Nat} (hle : lo ≤ hi) (hhi : hi < 32) (h : hi < i ∨ i < lo) (v : Nat) :
    bit (x.setBits hi lo v).toNat i = bit x.toNat i := by
  have hout : ¬ (lo ≤ i ∧ i ≤ hi) := by omega
  rw [bit_eq_testBit, bit_eq_testBit, Word.testBit_setBits x hle hhi, if_neg hout]

/-- A bit written reads as bit 0 of the value written. -/
theorem Word.bit_setBits_same (x : Word) {i : Nat} (hi : i < 32) (v : Nat) : bit (x.setBits i i v).toNat i = v.testBit 0 := by
  rw [bit_eq_testBit, Word.testBit_setBits x le_rfl hi, if_pos ⟨le_rfl, le_rfl⟩, Nat.sub_self]

/-- Pages begin at multiples of 4,096: registers at different offsets below that are different registers. -/
theorem Page.base_mod (pg : Page) : pg.base % 0x1000 = 0 := by
  cases pg <;> simp only [Page.base] <;> omega

end Sys2Proof

end

/-! # Reports, freezes and refusals at issue

What a report leaves of the registers, what a freeze leaves in FREEZE, and what a refused instruction shows of both; none of them
changes a sequencer's state. -/

section

namespace Sys2Proof.Machine

/-! ## Reports (R389, R390) -/

theorem State.reg_eq_of_regs {s t : State} (h : t.regs = s.regs) (a : Nat) : t.reg a = s.reg a := by
  rw [State.reg, State.reg, h]

@[simp] theorem State.incFld_eq (s : State) (a hi lo : Nat) :
    s.incFld a hi lo = s.setReg a ((s.reg a).setBits hi lo (satInc (hi - lo + 1) ((s.reg a).field hi lo))) := rfl

@[simp] theorem State.msix_regs (s : State) (v : Nat) : (s.msix v).regs = s.regs := by
  unfold State.msix
  split <;> rfl

@[simp] theorem State.msix_barns (s : State) (v : Nat) : (s.msix v).barns = s.barns := by
  unfold State.msix
  split <;> rfl

@[simp] theorem State.platformEvent_regs (s : State) (w : Word) : (s.platformEvent w).regs = s.regs := by
  unfold State.platformEvent
  split <;> rfl

@[simp] theorem State.platformEvent_barns (s : State) (w : Word) : (s.platformEvent w).barns = s.barns := by
  unfold State.platformEvent
  split <;> rfl

@[simp] theorem Event.ofPage_cls (e : Event) (pg : Page) : (e.ofPage pg).cls = e.cls := by
  cases pg <;> rfl

/-- Of the registers, the Gleaner changes a summary word and the count of the event's class. -/
theorem State.glean_regs (s : State) (src : Nat) (e : Event) : ∃ v w,
    (s.glean src e).regs = ((s.setReg (Reg.gleaner.FSW0 + 4 * (src / 32)) v).setReg (Reg.gleaner.CLASS_CNT e.cls) w).regs := by
  unfold State.glean
  extract_lets fsw old s₁ s₂ s₃ s₄ s₅
  have hirq : s₅.regs = s₃.regs := by
    simp only [s₅]
    split
    · rfl
    · exact State.msix_regs s₄ _
  have hlast : (if e.cls < Cls.retiring then s₅ else s₅.platformEvent (e.word0 src)).regs = s₅.regs := by
    split
    · rfl
    · exact State.platformEvent_regs s₅ _
  exact ⟨_, _, hlast.trans hirq⟩

@[simp] theorem State.glean_barns (s : State) (src : Nat) (e : Event) : (s.glean src e).barns = s.barns := by
  simp [State.glean, State.logEvent, apply_ite State.barns]

@[simp] theorem State.report_barns (s : State) (pg : Page) (e : Event) : (s.report pg e).barns = s.barns := by
  simp [State.report, State.reportAt, apply_ite State.barns]

/-- What a report leaves of the registers: their canonical form, and each of them but its block's ERR_STATUS, a summary word, and the
count of its class. -/
theorem State.report_regs {s : State} (h : CMap.wf resetVal s.regs = true) (pg : Page) (e : Event) :
    CMap.wf resetVal (s.report pg e).regs = true
      ∧ ∀ a, a ≠ pg.base + Reg.header.ERR_STATUS → a ≠ Reg.gleaner.FSW0 + 4 * (pg.summaryBit / 32) →
        a ≠ Reg.gleaner.CLASS_CNT e.cls → (s.report pg e).reg a = s.reg a := by
  unfold State.report State.reportAt
  extract_lets e' ea s₁
  have h₁ : CMap.wf resetVal s₁.regs = true := State.setReg_wf h _ _
  have hother : ∀ a, a ≠ ea → s₁.reg a = s.reg a := fun a ha => State.reg_setReg_other h ha _
  split
  · exact ⟨h₁, fun a ha _ _ => hother a ha⟩
  · obtain ⟨v, w, hregs⟩ := s₁.glean_regs pg.summaryBit e'
    have h₂ := State.setReg_wf h₁ (Reg.gleaner.FSW0 + 4 * (pg.summaryBit / 32)) v
    refine ⟨by rw [hregs]; exact State.setReg_wf h₂ _ _, fun a ha hfsw hcnt => ?_⟩
    rw [← Event.ofPage_cls e pg] at hcnt
    rw [State.reg_eq_of_regs hregs, State.reg_setReg_other h₂ hcnt, State.reg_setReg_other h₁ hfsw, hother a ha]

/-- A report of a class of R395 leaves every FREEZE alone. -/
theorem State.report_freeze_reg {s : State} (h : CMap.wf resetVal s.regs = true) {pg : Page} (hpg : pg.summaryBit < 128) {e : Event}
    (he : e.cls ≤ Cls.fatal) (pg' : Page) :
    (s.report pg e).reg (pg'.base + Reg.header.FREEZE) = s.reg (pg'.base + Reg.header.FREEZE) := by
  have hbase := pg.base_mod
  have hbase' := pg'.base_mod
  dsimp only [Cls.fatal] at he
  apply (State.report_regs h pg e).2 <;> dsimp only [Reg.header.FREEZE, Reg.header.ERR_STATUS, Reg.gleaner.FSW0,
    Reg.gleaner.CLASS_CNT, Reg.gleaner.page] <;> omega

/-! ## Freezing (R400, R404) -/

@[simp] theorem State.dropChannel_regs (s : State) (k : Nat) : (s.dropChannel k).regs = s.regs := by
  simp [State.dropChannel, State.holdAct, apply_ite State.regs]

@[simp] theorem State.dropChannel_barns (s : State) (k : Nat) : (s.dropChannel k).barns = s.barns := by
  simp [State.dropChannel, State.holdAct, apply_ite State.barns]

theorem State.dropChannels_regs (l : List Nat) (s : State) : (l.foldl (fun s k => s.dropChannel k) s).regs = s.regs := by
  induction l generalizing s with
  | nil => rfl
  | cons k l ih => rw [List.foldl_cons, ih, State.dropChannel_regs]

theorem State.dropChannels_barns (l : List Nat) (s : State) : (l.foldl (fun s k => s.dropChannel k) s).barns = s.barns := by
  induction l generalizing s with
  | nil => rfl
  | cons k l ih => rw [List.foldl_cons, ih, State.dropChannel_barns]

@[simp] theorem State.endAdmission_barns (s : State) (reason : Nat) : (s.endAdmission reason).barns = s.barns := by
  unfold State.endAdmission
  split
  · exact State.dropChannels_barns _ _
  · rfl

/-- Of the registers, the end of an admission changes ADM_STATUS. -/
theorem State.endAdmission_reg {s : State} (h : CMap.wf resetVal s.regs = true) (reason : Nat) {a : Nat}
    (ha : a ≠ Reg.tally.ADM_STATUS) : (s.endAdmission reason).reg a = s.reg a := by
  unfold State.endAdmission
  split
  · extract_lets t s₁ a₁ s₂
    have h₁ : CMap.wf resetVal s₁.regs = true := h
    have hfld : s₂.reg a = s₁.reg a := by
      simp only [s₂, State.setFld_eq]
      rw [State.reg_setReg_other (State.setReg_wf (State.setReg_wf h₁ _ _) _ _) ha,
        State.reg_setReg_other (State.setReg_wf h₁ _ _) ha, State.reg_setReg_other h₁ ha]
    rw [State.reg_eq_of_regs (State.dropChannels_regs _ _), hfld]
    rfl
  · rfl

@[simp] theorem State.rollbackOf_regs (s : State) (m : Nat) : (s.rollbackOf m).regs = s.regs := by
  unfold State.rollbackOf
  split <;> rfl

@[simp] theorem State.rollbackOf_barns (s : State) (m : Nat) : (s.rollbackOf m).barns = s.barns := by
  unfold State.rollbackOf
  split <;> rfl

@[simp] theorem State.freeze_barns (s : State) (m cause : Nat) : (s.freeze m cause).barns = s.barns := by
  unfold State.freeze
  split
  · rfl
  · simp only [apply_ite State.barns, State.endAdmission_barns, State.rollbackOf_barns, ite_self]
    rfl

/-- The word that a freeze leaves in FREEZE: FROZEN, the cause, the count of freezes. -/
theorem State.freeze_reg {s : State} (h : CMap.wf resetVal s.regs = true) {m : Nat} (hm : s.frozen m = false) (cause : Nat) :
    ∃ n, (s.freeze m cause).reg ((masterPage m).base + Reg.header.FREEZE)
      = (((s.reg ((masterPage m).base + Reg.header.FREEZE)).setBits 0 0 1).setBits 15 8 cause).setBits 31 16 n := by
  have hadm : (masterPage m).base + Reg.header.FREEZE ≠ Reg.tally.ADM_STATUS := by
    have hbase := (masterPage m).base_mod
    dsimp only [Reg.header.FREEZE, Reg.tally.ADM_STATUS, Reg.tally.page]
    omega
  unfold State.freeze
  rw [hm, if_neg Bool.false_ne_true]
  extract_lets a s₁ s₂
  have h₁ : CMap.wf resetVal s₁.regs = true := State.setReg_wf (State.setReg_wf (State.setReg_wf h _ _) _ _) _ _
  have hend : (if s₂.runsRecord m then s₂.endAdmission 2 else s₂).reg a = s₁.reg a := by
    have h₂ : CMap.wf resetVal s₂.regs = true := by rwa [State.rollbackOf_regs]
    split
    · rw [State.endAdmission_reg h₂ 2 hadm, State.reg_eq_of_regs (State.rollbackOf_regs s₁ m)]
    · exact State.reg_eq_of_regs (State.rollbackOf_regs s₁ m) a
  have hword : ∃ n, s₁.reg a = (((s.reg a).setBits 0 0 1).setBits 15 8 cause).setBits 31 16 n := by
    simp only [s₁, State.incFld_eq, State.setFld_eq]
    rw [State.reg_setReg_same (State.setReg_wf (State.setReg_wf h _ _) _ _), State.reg_setReg_same (State.setReg_wf h _ _),
      State.reg_setReg_same h]
    exact ⟨_, rfl⟩
  rwa [hend]

/-- A master that freezes is frozen. -/
theorem State.freeze_frozen {s : State} (h : CMap.wf resetVal s.regs = true) (m cause : Nat) :
    (s.freeze m cause).frozen m = true := by
  cases hm : s.frozen m with
  | true => rwa [State.freeze, hm, if_pos rfl]
  | false =>
    obtain ⟨n, hreg⟩ := State.freeze_reg h hm cause
    rw [State.frozen, State.regBit, hreg, Word.bit_setBits_apart _ (by decide) (by decide) (by decide),
      Word.bit_setBits_apart _ (by decide) (by decide) (by decide), Word.bit_setBits_same _ (by decide)]
    rfl

/-- A master that was not frozen shows the cause it freezes with. -/
theorem State.freeze_cause {s : State} (h : CMap.wf resetVal s.regs = true) {m : Nat} (hm : s.frozen m = false) {cause : Nat}
    (hcause : cause < 256) : ((s.freeze m cause).reg ((masterPage m).base + Reg.header.FREEZE)).field 15 8 = cause := by
  obtain ⟨n, hreg⟩ := State.freeze_reg h hm cause
  rw [hreg, Word.field_setBits_apart _ (by decide) (by decide) (by decide) (by decide),
    Word.field_setBits_same _ (by decide) (by decide) hcause]

/-! ## Refusal at issue (R155) -/

theorem masterPage_barn {b : Nat} (hb : b < 8) : masterPage (Master.barn b) = .barn b := by
  have h : ∀ k < 8, masterPage (Master.barn k) = .barn k := by decide
  exact h b hb

/-- A refusal at issue changes no sequencer. -/
@[simp] theorem State.refuseAt_barns (s : State) (b : Nat) (pg : Page) (cause : Nat) (pc : BitVec 13) :
    (s.refuseAt b pg cause pc).barns = s.barns := by
  simp [State.refuseAt, State.setFaultPc]

/-- A refusal at issue freezes the sequencer, and one that was not frozen shows the cause. -/
theorem State.refuseAt_freezes {s : State} (h : CMap.wf resetVal s.regs = true) {b : Nat} (hb : b < 8)
    (hfrozen : s.frozen (Master.barn b) = false) {pg : Page} (hpg : pg.summaryBit < 128) {cause : Nat} (hcause : cause < 256)
    (pc : BitVec 13) :
    (s.refuseAt b pg cause pc).frozen (Master.barn b) = true
      ∧ ((s.refuseAt b pg cause pc).reg ((Page.barn b).base + Reg.header.FREEZE)).field 15 8 = cause := by
  unfold State.refuseAt
  generalize hev : ({ cause := cause, cls := Cls.contained, master := Master.barn b } : Event) = e
  have hcls : e.cls ≤ Cls.fatal := by
    rw [← hev]
    exact show Cls.contained ≤ Cls.fatal by decide
  have hpc : (Page.barn b).base + Reg.header.FREEZE ≠ Reg.barn.FAULT_PC b := by
    dsimp only [Page.base, Reg.header.FREEZE, Reg.barn.FAULT_PC, Reg.barn.page]
    omega
  have h₁ : CMap.wf resetVal (s.setFaultPc b pc).regs = true := State.setReg_wf h _ _
  have h₂ : CMap.wf resetVal ((s.setFaultPc b pc).report pg e).regs = true := (State.report_regs h₁ pg e).1
  have hstill : ((s.setFaultPc b pc).report pg e).frozen (Master.barn b) = false := by
    rw [State.frozen, State.regBit, masterPage_barn hb, State.report_freeze_reg h₁ hpg hcls, State.setFaultPc,
      State.reg_setReg_other h hpc, ← masterPage_barn hb]
    exact hfrozen
  have hshown := State.freeze_cause h₂ hstill hcause
  rw [masterPage_barn hb] at hshown
  exact ⟨State.freeze_frozen h₂ _ _, hshown⟩

end Sys2Proof.Machine

end

/-! # Issue and WAIT

The word that stands at a sequencer's address, the one command that issues it, and the cases of WAIT (R182). -/

section

namespace Sys2Proof.Machine

/-! ## The word that stands at SEQ_PC (R155, R190) -/

section
variable {s : State} {b op w : Nat}

theorem State.Stands.frozen (h : s.Stands b op w) : s.frozen (Master.barn b) = false := by
  obtain ⟨hissue, -⟩ := h
  simpa using (Bool.and_eq_true_iff.mp hissue).2

theorem State.Stands.word (h : s.Stands b op w) : (s.gran.rd (s.pcKey b)).toNat = w := by
  obtain ⟨-, -, -, hw, -, -⟩ := h
  exact hw

theorem State.Stands.opcode (h : s.Stands b op w) : wordOp w = op := by
  obtain ⟨-, -, -, -, -, hop⟩ := h
  exact hop

theorem State.Stands.known (h : s.Stands b op w) (hop : opcodeOk op = true) : wordKnown w = true := by
  obtain ⟨-, -, -, -, hver, hwop⟩ := h
  simp [wordKnown, hver, hwop, hop]

/-- What a fetch finds where a word with a known opcode stands: the word, for its own instruction's command; nothing to do, for every
other. -/
theorem State.Stands.fetchOp (h : s.Stands b op w) (hop : opcodeOk op = true) (op' : Nat) :
    s.fetchOp b op' = if op ≠ op' then .error s else .ok w := by
  have hknown := h.known hop
  have hword := h.word
  obtain ⟨hissue, hpc, hbad, -, -, hwop⟩ := h
  have hbad' : s.granWordBad (s.pcKey b) = false := hbad
  simp [State.fetchOp, hissue, hbad', Nat.not_le.mpr hpc, hword, hknown, hwop]

/-- The command of the instruction that stands there has its effect. -/
theorem State.Stands.issueOp_same (h : s.Stands b op w) (hop : opcodeOk op = true) (f : Nat → State) : s.issueOp b op f = f w := by
  rw [State.issueOp, h.fetchOp hop, if_neg (not_not_intro rfl)]

/-- The command of another instruction does nothing. -/
theorem State.Stands.issueOp_other (h : s.Stands b op w) (hop : opcodeOk op = true) {op' : Nat} (hne : op ≠ op') (f : Nat → State) :
    s.issueOp b op' f = s := by
  rw [State.issueOp, h.fetchOp hop, if_pos hne]

/-- The command of another instruction fetches no word. -/
theorem State.Stands.fetches_other (h : s.Stands b op w) (hop : opcodeOk op = true) {op' : Nat} (hne : op ≠ op') :
    s.fetches b op' = false := by
  simp [State.fetches, h.word, h.known hop, h.opcode, hne]

end

@[simp] theorem State.upsetFetch_clean (s : State) (b op : Nat) (f : State → State) : s.upsetFetch b op .clean f = f s := by
  unfold State.upsetFetch
  split <;> rfl

/-- Where no word is fetched for a command, its upset has none to fall on. -/
theorem State.upsetFetch_of_not_fetches {s : State} {b op : Nat} (h : s.fetches b op = false) (u : Upset) (f : State → State) :
    s.upsetFetch b op u f = f s := by
  simp [State.upsetFetch, h]

/-- What every issue command is: a fetch for its opcode, and an effect of the word fetched. -/
theorem exec_issueCmd {b : BarnId} {u : Upset} {i : Nat} {c : Instr} (h : (issueCmds b u)[i]? = some c) :
    ∃ f : State → Nat → State, ∀ s, exec c s = .next (s.upsetFetch b i u (fun s => s.issueOp b i (f s))) := by
  have hi : i < 19 := (List.getElem?_eq_some_iff.mp h).1
  interval_cases i <;> (obtain rfl := Option.some.inj h; exact ⟨_, fun _ => rfl⟩)

/-- No instruction issues but the one that stands at SEQ_PC, whatever the code of its word would find. -/
theorem exec_issueCmd_other {s : State} {b : BarnId} {op w : Nat} (h : s.Stands b op w) (hop : opcodeOk op = true) {u : Upset} {i : Nat}
    {c : Instr} (hc : (issueCmds b u)[i]? = some c) (hne : op ≠ i) : exec c s = .next s := by
  obtain ⟨f, hexec⟩ := exec_issueCmd hc
  rw [hexec, State.upsetFetch_of_not_fetches (h.fetches_other hop hne), h.issueOp_other hop hne]

/-! ## The cases of WAIT (R182) -/

theorem exec_wait (c : Coded BarnId) (s : State) : exec (.wait c) s = execWait c s := by
  rfl

section
variable {s : State} {b : BarnId} {w : Nat}

theorem exec_wait_zero (h : s.Stands b Opc.WAIT w) (hn : bits w 113 98 = 0) :
    exec (.wait ⟨b, .clean⟩) s = .next (s.refuseWord b) := by
  rw [exec_wait, execWait, State.upsetFetch_clean, h.issueOp_same rfl]
  simp [hn]

/-- Below N, or where a commit holds it, WAIT stands. -/
theorem exec_wait_holds (h : s.Stands b Opc.WAIT w) (hn : bits w 113 98 ≠ 0)
    (hhold : s.token b (bits w 117 114) < bits w 113 98 ∨ s.waitHolds b = true) :
    exec (.wait ⟨b, .clean⟩) s = .next (s.setBarn b { s.barn b with waiting := some (bits w 117 114, bits w 113 98) }) := by
  rw [exec_wait, execWait, State.upsetFetch_clean, h.issueOp_same rfl]
  simp only [if_neg hn, if_pos hhold, State.modBarn_eq]

/-- At N or more, with no commit that holds it, WAIT takes N tokens, notes them, and issue goes on. -/
theorem exec_wait_takes (h : s.Stands b Opc.WAIT w) (hn : bits w 113 98 ≠ 0)
    (hle : bits w 113 98 ≤ s.token b (bits w 117 114)) (hhold : s.waitHolds b = false) :
    exec (.wait ⟨b, .clean⟩) s = .next
      ((s.setFld (Reg.barn.TOKEN b (bits w 117 114)) 15 0 (s.token b (bits w 117 114) - bits w 113 98)).setBarn b
        { (s.barn b).advance with waitSums := (s.barn b).waitSums.modify (bits w 117 114) (fun k => k + bits w 113 98) }) := by
  have hgo : ¬ (s.token b (bits w 117 114) < bits w 113 98 ∨ s.waitHolds b = true) := by simp [hle, hhold]
  rw [exec_wait, execWait, State.upsetFetch_clean, h.issueOp_same rfl]
  simp only [if_neg hn, if_neg hgo]
  rfl

end

theorem State.token_lt (s : State) (b t : Nat) : s.token b t < 65536 := bits_lt _ 15 0

/-- A count of 16 bits written to a token counter is what it then holds. -/
theorem State.token_setFld_same {s : State} (h : CMap.wf resetVal s.regs = true) (b t : Nat) {n : Nat} (hn : n < 65536) :
    (s.setFld (Reg.barn.TOKEN b t) 15 0 n).token b t = n := by
  rw [State.token, State.fld, State.setFld_eq, State.reg_setReg_same h]
  exact Word.field_setBits_same _ (by decide) (by decide) hn

/-- New registers and new sequencers are all that then differs. -/
theorem State.frame_regs_barns {s t : State} (h : t = { s with regs := t.regs, barns := t.barns }) : s.Frame [.regs, .barns] t := by
  intro p hp
  rw [h]
  cases p with
  | regs | barns => simp at hp
  | stackCores => exact fun _ => rfl
  | _ => rfl

/-- Settles O3, by the cases of WAIT: N is 0, the counter is at least N and no commit holds the WAIT, or the counter is below N; and
by the fetch of every other issue command, which finds a word that is not its own. -/
theorem waitTakesOrHolds : Obligations.WaitTakesOrHolds := by
  intro b s w hcanon h
  obtain ⟨hregs, -⟩ := hcanon
  have hlt := s.token_lt b (bits w 117 114)
  refine ⟨hlt, fun hn => ?zero, fun hn hle hhold => ?takes, fun hbelow => ?below, fun u i c hne hc => ?others⟩
  case zero =>
    obtain ⟨hfrozen, hcause⟩ := State.refuseAt_freezes hregs b.isLt h.frozen (pg := .barn b) (show 64 + b.val < 128 by omega)
      (show Cause.FORMAT < 256 by decide) (s.barn b).pc
    exact ⟨_, exec_wait_zero h hn, hfrozen, hcause, State.refuseAt_barns s b _ _ _⟩
  case takes =>
    refine ⟨_, exec_wait_takes h hn hle hhold, ?_, ?_, ?_, fun a ha => ?_, fun k hk => ?_, State.frame_regs_barns rfl⟩
    · exact State.token_setFld_same hregs b _ (by omega)
    · rw [State.barn_setBarn_same _ b.isLt]
      rfl
    · rw [State.barn_setBarn_same _ b.isLt]
      rfl
    · exact State.reg_setReg_other hregs ha _
    · exact State.barn_setBarn_other _ hk _
  case below => exact exec_wait_holds h (by omega) (.inl hbelow)
  case others => exact exec_issueCmd_other h rfl hc hne.symm

end Sys2Proof.Machine

end

/-! # Releases

What FREEZE_RELEASE does where its write is served, and a frozen barn that its release leaves frozen, where a job holds a report of no class
of R395. -/

section

namespace Sys2Proof.Machine

/-! ## FREEZE_RELEASE as the write that it makes (R403) -/

theorem exec_freezeRelease (w : Writer) (m : BitVec 6) (s : State) : exec (.freezeRelease w m) s = execFreezeRelease w m s := by
  rfl

/-- A whole entry that is served has the effect of its write. -/
theorem State.put_of_takesClean {s : State} {w : Writer} {a : Nat} (h : s.takesClean w a = true) (f : State → State) :
    s.put w a f = f s := by
  obtain ⟨htakes, harmed⟩ : s.takesWrite w a = true ∧ s.sluiceArmed w = false := by simpa [State.takesClean] using h
  rw [State.put_good harmed, if_pos htakes]

/-- Outside the Fatal state (R397), a master that may release another does so. -/
theorem State.releaseBy_of_mayRelease {s : State} {w : Writer} {m : Nat} (hpage : masterPage m ≠ .unassigned)
    (hfatal : s.fatal = false) (hmay : w.mayRelease m = true) : s.releaseBy w m = s.releaseMaster m := by
  simp [State.releaseBy, hpage, hfatal, hmay]

theorem exec_freezeRelease_of_mayRelease {s : State} {w : Writer} {m : BitVec 6}
    (htakes : s.takesClean w ((masterPage m.toNat).base + Reg.header.FREEZE) = true) (hpage : masterPage m.toNat ≠ .unassigned)
    (hfatal : s.fatal = false) (hmay : w.mayRelease m.toNat = true) :
    exec (.freezeRelease w m) s = .next (s.releaseMaster m.toNat) := by
  rw [exec_freezeRelease, execFreezeRelease, State.put_of_takesClean htakes, State.releaseBy_of_mayRelease hpage hfatal hmay]

/-! ## A held report of no class -/

/-- A class far above the five of R395: where CLASS_CNT would count its events stands FREEZE of barn 1. -/
def farClass : Nat := ((Page.barn 1).base + Reg.header.FREEZE - Reg.gleaner.CLASS_CNT 0) / 4

/-- RUN, with one collective record, of job 0, which holds a report of that class (R333). Barn 1 is frozen, and its segment has handed
work on, so that its abort is a step abort (R203). -/
def holdsFarReport : State :=
  let s : State := { State.reset with
    module := { Module.reset with power := .run }
    tally := { Tally.reset with colls := [0] } }
  let s := (s.setReg Reg.global.COLL_CTRL 1).setReg ((Page.barn 1).base + Reg.header.FREEZE) 1
  let s := s.modBarn 1 (fun x => { x with phase := .run, handed := true })
  s.modJob 0 (fun x => { x with lateReports := [⟨.spring, Cause.MEM_UNCORRECTABLE, farClass, false, Master.none, 0⟩] })

theorem holdsFarReport_canonical : holdsFarReport.Canonical := by
  unfold State.Canonical
  decide +kernel

theorem holdsFarReport_takesClean :
    holdsFarReport.takesClean .mgmt ((masterPage (Master.barn 1)).base + Reg.header.FREEZE) = true := by
  decide +kernel

theorem holdsFarReport_frozen : holdsFarReport.frozen (Master.barn 1) = true := by
  decide +kernel

/-- The step abort of the release makes the report, whose count sets FROZEN again. -/
theorem holdsFarReport_frozen_released : (holdsFarReport.releaseMaster (Master.barn 1)).frozen (Master.barn 1) = true := by
  decide +kernel

/-- Refutes O45, in its clause on barns: the management port releases barn 1, whose segment has handed work on; the step abort makes the
report that job 0 holds, and counts it where FREEZE of barn 1 stands, which so reads FROZEN = 1 after the release.
The state is canonical, as the statement asks, but ill-formed: the model's own commands make reports of the classes of R395 alone. -/
theorem not_releasesAndErrorClears : ¬ Obligations.ReleasesAndErrorClears := by
  intro h
  have hpage : masterPage (Master.barn 1) ≠ .unassigned := by decide
  have hfatal : holdsFarReport.fatal = false := rfl
  have hmay : Writer.mgmt.mayRelease (Master.barn 1) = true := rfl
  have hexec := exec_freezeRelease_of_mayRelease (m := 9#6) holdsFarReport_takesClean hpage hfatal hmay
  obtain ⟨hreleases, -⟩ := h .mgmt 9#6 holdsFarReport
  obtain ⟨-, hfrozen, -⟩ := hreleases holdsFarReport_takesClean holdsFarReport_canonical hpage hfatal
  obtain ⟨-, -, -, hbarn, -⟩ := hfrozen hmay holdsFarReport_frozen
  obtain ⟨t, hnext, hreleased, -⟩ := hbarn (by decide) (by decide) rfl
  obtain rfl := Host.Outcome.next.inj (hexec.symm.trans hnext)
  exact Bool.false_ne_true (hreleased.symm.trans holdsFarReport_frozen_released)

end Sys2Proof.Machine

end
